-- ==== Sys2Proof/Word.lean ====
section
/-! DEFINITION. The word types of the engine (00_scope R10, R11; 20_memory R61): host registers are 32 bits,
rotor and plugboard entries 16 bits, block and key bytes 8 bits. All values are unsigned. -/

namespace Sys2Proof

/-- A host register (R7 `REGW` = 32), a command word, a code point (R75). -/
abbrev Word := BitVec 32

/-- A rotor position, a notch, an entry of a rotor table or of the plugboard (R38 to R42). -/
abbrev Half := BitVec 16

/-- A byte of the key, of a block, of a chaining register or of the S-box (R37, R43, R45, R46). -/
abbrev Byte := BitVec 8

/-- A 16-byte block, `B[0..15]` (R200). -/
abbrev Block := Vector Byte 16

/-- A 32-byte master key, `K[0..31]` (R37). -/
abbrev Key := Vector Byte 32

/-- A table over `[0, 65536)`: one rotor table or the plugboard (R40, R41, R42). -/
abbrev Table := Vector Half 65536

/-- The eight rotor tables of one bank (R40, R41). -/
abbrev Bank := Vector Table 8

/-- An S-box or its inverse (R43). -/
abbrev ByteTable := Vector Byte 256

/-- The eight rotor positions (R38). -/
abbrev Positions := Vector Half 8

/-- The eight notch counts; three bits hold every value of 1..7 (R39). -/
abbrev NotchCounts := Vector (BitVec 3) 8

/-- The seven notch slots of each rotor (R39). -/
abbrev NotchSlots := Vector (Vector Half 7) 8

/-- The swap pairs `PLUG_PAIR(K, i)` of one key, for every step `i` a swap count of at most 149 can reach (R129, R135). -/
abbrev PlugPairs := Vector (Half × Half) 149

/-- A value of the parameter `PLUG_PAIR` (R7, R128): for each listed key its swap pairs, and for every other key those of
the default formula. Log 6. -/
abbrev PlugParameter := List (Key × PlugPairs)

end Sys2Proof
end

