-- ==== Sys2Proof/Config.lean ====
section
/-! DEFINITION. What an implementation fixes (00_scope R6, R7) and the free values (93 U1, U4, U20). An `opaque`
constant has no body: nothing can be proved of its value, so a claim that mentions one holds whatever it is. -/

namespace Sys2Proof.Config

/-- `ID_VALUE`, the constant the `ID` register reads (R21). -/
def idValue : Word := 0x524F5437

/-- `MULT`, the multiplier of the notch and plugboard derivations (R6). -/
def mult : Nat := 251

/-- The default of `SBOX_KEY_OFFSET` (R7, R130, U22). -/
def defaultSboxKeyOffset : Nat := 0

/-- `BASE` divided by 256: the platform chooses it (R60, U20). Free; log 8. -/
opaque baseIndex : Nat

/-- `BASE`, the window's first host address, a multiple of 256 (R60). -/
def base : Nat := 256 * baseIndex

/-- The word a read of `DOUT` returns while `BUSY = 1` (R72, U1): the `n`-th free draw. Log 3. -/
opaque freeDout : Nat → Word

/-- `POS` after a successful `TEARDOWN` (R273, U4): free. Log 4, as are the seven constants below. -/
opaque freePos : Nat → Positions
/-- `NCNT` after a successful `TEARDOWN`. -/
opaque freeNcnt : Nat → NotchCounts
/-- `NOTCH` after a successful `TEARDOWN`. -/
opaque freeNotch : Nat → NotchSlots
/-- `RFWD` after a successful `TEARDOWN`. -/
opaque freeRfwd : Nat → Bank
/-- `RINV` after a successful `TEARDOWN`. -/
opaque freeRinv : Nat → Bank
/-- `PLUG` after a successful `TEARDOWN`. -/
opaque freePlug : Nat → Table
/-- `SBOX` after a successful `TEARDOWN`. -/
opaque freeSbox : Nat → ByteTable
/-- `ISBOX` after a successful `TEARDOWN`. -/
opaque freeIsbox : Nat → ByteTable

end Sys2Proof.Config
end

