-- ==== Sys2Proof/Syntax.lean ====
section
/-! DEFINITION. The commands of the engine, one constructor per row of spec/opcode_table.json (30_encoding R92). -/

namespace Sys2Proof

/-- A decoded command, `Command(OP, SEL, N, IDX)` of R94: the constructor is the opcode, its arguments the fields the
opcode uses. `sel`, `n` and `idx` are unsigned naturals (R96); `wellFormed` bounds them by the field widths (R104). -/
inductive Instr where
  /-- `INIT`, opcode 0x01, context (R271). -/
  | init
  /-- `MSGRST`, opcode 0x02, context (R272). -/
  | msgrst
  /-- `TEARDOWN`, opcode 0x03, context (R273). -/
  | teardown
  /-- `CENC`, opcode 0x10, unit (R241). -/
  | cenc
  /-- `CDEC`, opcode 0x11, unit (R242). -/
  | cdec
  /-- `BENC`, opcode 0x18, unit (R246). -/
  | benc
  /-- `BDEC`, opcode 0x19, unit (R247). -/
  | bdec
  /-- `PB_APPLY`, opcode 0x20, diagnostic (R192). -/
  | pbApply
  /-- `ROT_FWD`, opcode 0x21, diagnostic (R155). -/
  | rotFwd
  /-- `ROT_BWD`, opcode 0x22, diagnostic (R156). -/
  | rotBwd
  /-- `ROT_STEP`, opcode 0x23, diagnostic (R157). -/
  | rotStep
  /-- `BT_FWD`, opcode 0x24, diagnostic (R214). -/
  | btFwd
  /-- `BT_INV`, opcode 0x25, diagnostic (R215). -/
  | btInv
  /-- `BT_SUB`, opcode 0x26, diagnostic (R216). -/
  | btSub
  /-- `BT_SHR`, opcode 0x27, diagnostic (R217). -/
  | btShr
  /-- `BT_MIX`, opcode 0x28, diagnostic (R218). -/
  | btMix
  /-- `BT_ARK`, opcode 0x29, diagnostic (R219). -/
  | btArk
  /-- `BT_ISUB`, opcode 0x2A, diagnostic (R220). -/
  | btIsub
  /-- `BT_ISHR`, opcode 0x2B, diagnostic (R221). -/
  | btIshr
  /-- `BT_IMIX`, opcode 0x2C, diagnostic (R222). -/
  | btImix
  /-- `RD_POS`, opcode 0x30, diagnostic (R158). -/
  | rdPos (sel : Nat)
  /-- `WR_POS`, opcode 0x31, diagnostic (R159). -/
  | wrPos (sel : Nat)
  /-- `RD_NOTCH`, opcode 0x32, diagnostic (R160). -/
  | rdNotch (sel : Nat) (n : Nat)
  /-- `WR_NOTCH`, opcode 0x33, diagnostic (R161). -/
  | wrNotch (sel : Nat) (n : Nat)
  /-- `WR_NCNT`, opcode 0x34, diagnostic (R162). -/
  | wrNcnt (sel : Nat)
  /-- `RD_RFWD`, opcode 0x38, diagnostic (R163). -/
  | rdRfwd (sel : Nat) (idx : Nat)
  /-- `RD_RINV`, opcode 0x39, diagnostic (R164). -/
  | rdRinv (sel : Nat) (idx : Nat)
  /-- `RD_PLUG`, opcode 0x3A, diagnostic (R193). -/
  | rdPlug (idx : Nat)
  /-- `RD_SBOX`, opcode 0x3B, diagnostic (R223). -/
  | rdSbox (idx : Nat)
  /-- `RD_ISBOX`, opcode 0x3C, diagnostic (R224). -/
  | rdIsbox (idx : Nat)
  /-- `RD_RKEY`, opcode 0x3D, diagnostic (R225). -/
  | rdRkey (sel : Nat)
  /-- `RD_CREG`, opcode 0x3E, diagnostic (R249). -/
  | rdCreg
  /-- `RD_BREG`, opcode 0x3F, diagnostic (R250). -/
  | rdBreg
deriving DecidableEq, Repr

end Sys2Proof
end

