-- ==== Sys2Proof/WellFormed.lean ====
section
/-! DEFINITION. Which commands an encoding can hold (30_encoding R90, R104): each field below the bound of its width.
The operand RANGES of R95 are no part of this: an out-of-range field decodes, and fails with `BadOperand`. -/

namespace Sys2Proof

/-- `SEL < 16`, `N < 8`, `IDX < 65536`, for the fields the command has (R104). -/
def wellFormed : Instr → Bool
  | .init => true
  | .msgrst => true
  | .teardown => true
  | .cenc => true
  | .cdec => true
  | .benc => true
  | .bdec => true
  | .pbApply => true
  | .rotFwd => true
  | .rotBwd => true
  | .rotStep => true
  | .btFwd => true
  | .btInv => true
  | .btSub => true
  | .btShr => true
  | .btMix => true
  | .btArk => true
  | .btIsub => true
  | .btIshr => true
  | .btImix => true
  | .rdPos sel => decide (sel < 16)
  | .wrPos sel => decide (sel < 16)
  | .rdNotch sel n => decide (sel < 16) && decide (n < 8)
  | .wrNotch sel n => decide (sel < 16) && decide (n < 8)
  | .wrNcnt sel => decide (sel < 16)
  | .rdRfwd sel idx => decide (sel < 16) && decide (idx < 65536)
  | .rdRinv sel idx => decide (sel < 16) && decide (idx < 65536)
  | .rdPlug idx => decide (idx < 65536)
  | .rdSbox idx => decide (idx < 65536)
  | .rdIsbox idx => decide (idx < 65536)
  | .rdRkey sel => decide (sel < 16)
  | .rdCreg => true
  | .rdBreg => true

end Sys2Proof
end

