-- ==== Sys2Proof/Decode.lean ====
section
/-! DEFINITION. Command words (30_encoding R90 to R94, R99, R104): the field extraction, a decoder that is total over
all 2^32 words, the encoder, and the reading of an opcode-table word. -/

namespace Sys2Proof

/-- `OP = w[7:0]` (R91). -/
def opField (w : Word) : Nat := (w.extractLsb' 0 8).toNat
/-- `SEL = w[11:8]` (R91). -/
def selField (w : Word) : Nat := (w.extractLsb' 8 4).toNat
/-- `N = w[14:12]` (R91). -/
def nField (w : Word) : Nat := (w.extractLsb' 12 3).toNat
/-- `RSV = w[15]` (R91). -/
def rsvField (w : Word) : Nat := (w.extractLsb' 15 1).toNat
/-- `IDX = w[31:16]` (R91). -/
def idxField (w : Word) : Nat := (w.extractLsb' 16 16).toNat

/-- A command that uses no field: every field must be 0 (R93). -/
def decodeBare (i : Instr) (w : Word) : Option Instr :=
  if selField w = 0 ∧ nField w = 0 ∧ idxField w = 0 then some i else none

/-- A command that uses `SEL` alone (R93). -/
def decodeSel (i : Nat → Instr) (w : Word) : Option Instr :=
  if nField w = 0 ∧ idxField w = 0 then some (i (selField w)) else none

/-- A command that uses `SEL` and `N` (R93). -/
def decodeSelN (i : Nat → Nat → Instr) (w : Word) : Option Instr :=
  if idxField w = 0 then some (i (selField w) (nField w)) else none

/-- A command that uses `SEL` and `IDX` (R93). -/
def decodeSelIdx (i : Nat → Nat → Instr) (w : Word) : Option Instr :=
  if nField w = 0 then some (i (selField w) (idxField w)) else none

/-- A command that uses `IDX` alone (R93). -/
def decodeIdx (i : Nat → Instr) (w : Word) : Option Instr :=
  if selField w = 0 ∧ nField w = 0 then some (i (idxField w)) else none

/-- The opcode map (R92): the command an opcode stands for, if its fields are as R93 wants them. -/
def decodeOp (w : Word) : Option Instr :=
  match opField w with
  | 0x01 => decodeBare .init w
  | 0x02 => decodeBare .msgrst w
  | 0x03 => decodeBare .teardown w
  | 0x10 => decodeBare .cenc w
  | 0x11 => decodeBare .cdec w
  | 0x18 => decodeBare .benc w
  | 0x19 => decodeBare .bdec w
  | 0x20 => decodeBare .pbApply w
  | 0x21 => decodeBare .rotFwd w
  | 0x22 => decodeBare .rotBwd w
  | 0x23 => decodeBare .rotStep w
  | 0x24 => decodeBare .btFwd w
  | 0x25 => decodeBare .btInv w
  | 0x26 => decodeBare .btSub w
  | 0x27 => decodeBare .btShr w
  | 0x28 => decodeBare .btMix w
  | 0x29 => decodeBare .btArk w
  | 0x2A => decodeBare .btIsub w
  | 0x2B => decodeBare .btIshr w
  | 0x2C => decodeBare .btImix w
  | 0x30 => decodeSel .rdPos w
  | 0x31 => decodeSel .wrPos w
  | 0x32 => decodeSelN .rdNotch w
  | 0x33 => decodeSelN .wrNotch w
  | 0x34 => decodeSel .wrNcnt w
  | 0x38 => decodeSelIdx .rdRfwd w
  | 0x39 => decodeSelIdx .rdRinv w
  | 0x3A => decodeIdx .rdPlug w
  | 0x3B => decodeIdx .rdSbox w
  | 0x3C => decodeIdx .rdIsbox w
  | 0x3D => decodeSel .rdRkey w
  | 0x3E => decodeBare .rdCreg w
  | 0x3F => decodeBare .rdBreg w
  | _ => none

/-- `decode` of R94: `none` is `Illegal`, which raises `IllegalCommand` (R304). -/
def decode (w : Word) : Option Instr :=
  if rsvField w = 0 then decodeOp w else none

/-- The opcode of a command (R92). -/
def opcode : Instr → Nat
  | .init => 0x01
  | .msgrst => 0x02
  | .teardown => 0x03
  | .cenc => 0x10
  | .cdec => 0x11
  | .benc => 0x18
  | .bdec => 0x19
  | .pbApply => 0x20
  | .rotFwd => 0x21
  | .rotBwd => 0x22
  | .rotStep => 0x23
  | .btFwd => 0x24
  | .btInv => 0x25
  | .btSub => 0x26
  | .btShr => 0x27
  | .btMix => 0x28
  | .btArk => 0x29
  | .btIsub => 0x2A
  | .btIshr => 0x2B
  | .btImix => 0x2C
  | .rdPos _ => 0x30
  | .wrPos _ => 0x31
  | .rdNotch _ _ => 0x32
  | .wrNotch _ _ => 0x33
  | .wrNcnt _ => 0x34
  | .rdRfwd _ _ => 0x38
  | .rdRinv _ _ => 0x39
  | .rdPlug _ => 0x3A
  | .rdSbox _ => 0x3B
  | .rdIsbox _ => 0x3C
  | .rdRkey _ => 0x3D
  | .rdCreg => 0x3E
  | .rdBreg => 0x3F

/-- The `SEL` field of a command's word: 0 where the command does not use it (R93). -/
def selOperand : Instr → Nat
  | .init => 0
  | .msgrst => 0
  | .teardown => 0
  | .cenc => 0
  | .cdec => 0
  | .benc => 0
  | .bdec => 0
  | .pbApply => 0
  | .rotFwd => 0
  | .rotBwd => 0
  | .rotStep => 0
  | .btFwd => 0
  | .btInv => 0
  | .btSub => 0
  | .btShr => 0
  | .btMix => 0
  | .btArk => 0
  | .btIsub => 0
  | .btIshr => 0
  | .btImix => 0
  | .rdPos sel => sel
  | .wrPos sel => sel
  | .rdNotch sel _ => sel
  | .wrNotch sel _ => sel
  | .wrNcnt sel => sel
  | .rdRfwd sel _ => sel
  | .rdRinv sel _ => sel
  | .rdPlug _ => 0
  | .rdSbox _ => 0
  | .rdIsbox _ => 0
  | .rdRkey sel => sel
  | .rdCreg => 0
  | .rdBreg => 0

/-- The `N` field of a command's word (R93). -/
def nOperand : Instr → Nat
  | .init => 0
  | .msgrst => 0
  | .teardown => 0
  | .cenc => 0
  | .cdec => 0
  | .benc => 0
  | .bdec => 0
  | .pbApply => 0
  | .rotFwd => 0
  | .rotBwd => 0
  | .rotStep => 0
  | .btFwd => 0
  | .btInv => 0
  | .btSub => 0
  | .btShr => 0
  | .btMix => 0
  | .btArk => 0
  | .btIsub => 0
  | .btIshr => 0
  | .btImix => 0
  | .rdPos _ => 0
  | .wrPos _ => 0
  | .rdNotch _ n => n
  | .wrNotch _ n => n
  | .wrNcnt _ => 0
  | .rdRfwd _ _ => 0
  | .rdRinv _ _ => 0
  | .rdPlug _ => 0
  | .rdSbox _ => 0
  | .rdIsbox _ => 0
  | .rdRkey _ => 0
  | .rdCreg => 0
  | .rdBreg => 0

/-- The `IDX` field of a command's word (R93). -/
def idxOperand : Instr → Nat
  | .init => 0
  | .msgrst => 0
  | .teardown => 0
  | .cenc => 0
  | .cdec => 0
  | .benc => 0
  | .bdec => 0
  | .pbApply => 0
  | .rotFwd => 0
  | .rotBwd => 0
  | .rotStep => 0
  | .btFwd => 0
  | .btInv => 0
  | .btSub => 0
  | .btShr => 0
  | .btMix => 0
  | .btArk => 0
  | .btIsub => 0
  | .btIshr => 0
  | .btImix => 0
  | .rdPos _ => 0
  | .wrPos _ => 0
  | .rdNotch _ _ => 0
  | .wrNotch _ _ => 0
  | .wrNcnt _ => 0
  | .rdRfwd _ idx => idx
  | .rdRinv _ idx => idx
  | .rdPlug idx => idx
  | .rdSbox idx => idx
  | .rdIsbox idx => idx
  | .rdRkey _ => 0
  | .rdCreg => 0
  | .rdBreg => 0

/-- The word of a command: `w = OP + 256*SEL + 4096*N + 65536*IDX`, bit 15 zero (R104). -/
def encode (i : Instr) : Word :=
  BitVec.ofNat 32 (opcode i + 256 * selOperand i + 4096 * nOperand i + 65536 * idxOperand i)

/-- The word whose low `nbits` bits are those of `w` and whose other bits are 0. -/
def tableWord (nbits w : Nat) : Word := BitVec.ofNat 32 (w % 2 ^ nbits)

/-- What the decoder reads from an opcode-table word. The engine takes the command as one 32-bit word from the `CMD`
register, so no byte order comes between the table's bits and the word's. -/
def decodeTableWord (nbits w : Nat) : Option Instr := decode (tableWord nbits w)

end Sys2Proof
end

