-- ==== Sys2Proof/Machine/State.lean ====
section
/-! DEFINITION. The state of the engine: the record of 10_state R20, the model's own fields for the host's side, the
outcomes' reasons, and the state after power-on reset (R50). -/

namespace Sys2Proof.Machine

/-- The errors of the source's and the spec's taxonomy, in code order 1 to 7 (60_exceptions R300). -/
inductive Err where
  /-- Code 1: `INIT` with a key staging word missing (R301). -/
  | invalidKeyLength
  /-- Code 2: any command but `INIT` while `STATUS.INIT = 0` (R302). -/
  | notInitialized
  /-- Code 3: reserved, raised by no command (R303). -/
  | invalidEncoding
  /-- Code 4: reserved, raised by no command (R303). -/
  | bufferTooSmall
  /-- Code 5: the word does not decode (R304). -/
  | illegalCommand
  /-- Code 6: a field or a `DIN[0]` value out of range (R305). -/
  | badOperand
  /-- Code 7: a diagnostic command while `CTRL.DIAG = 0` (R306). -/
  | diagDisabled
deriving DecidableEq, Repr

/-- One entry of the schedule: a host access, the engine's turn, or the platform's reset (R9, R80, R342). Log 1. -/
inductive Input where
  /-- `MemWrite` of `v` at byte offset `off` of the window (R61). -/
  | write (off : BitVec 8) (v : Word)
  /-- `MemRead` at byte offset `off` of the window (R61). -/
  | read (off : BitVec 8)
  /-- The engine's turn: it completes the command in progress, if there is one (R312). -/
  | engine
  /-- The platform asserts and deasserts the reset input (R340). -/
  | powerOnReset
deriving DecidableEq, Repr

/-- The engine's state (R20). The last five fields are the model's own (log 1, 3, 4, 6, 7, 9). -/
structure State where
  /-- `DIN[0..3]` (R22). -/
  din : Vector Word 4
  /-- `DOUT[0..3]` (R22). -/
  dout : Vector Word 4
  /-- `CTRL.DIAG` (R24). -/
  diag : Bool
  /-- `CTRL.IE` (R24). -/
  ie : Bool
  /-- `STATUS.INIT` (R26). -/
  init : Bool
  /-- `STATUS.BUSY` (R27). -/
  busy : Bool
  /-- `STATUS.DONE` (R28). -/
  done : Bool
  /-- `STATUS.ERR` (R29). -/
  err : Bool
  /-- `STATUS.OVR` (R30). -/
  ovr : Bool
  /-- `STATUS.MODE` (R31). -/
  mode : Bool
  /-- `STATUS.CST` (R32). -/
  cst : Bool
  /-- `STATUS.BST` (R32). -/
  bst : Bool
  /-- `STATUS.KEYMASK` (R33). -/
  keymask : BitVec 8
  /-- `ERRCODE[3:0]` (R34). -/
  errcode : BitVec 4
  /-- `KEY[0..7]` (R36). -/
  key : Vector Word 8
  /-- `PENDING` (R47). -/
  pending : Word
  /-- `MK[0..31]` (R37). -/
  mkey : Key
  /-- `POS[0..7]` (R38). -/
  pos : Positions
  /-- `NCNT[0..7]` (R39). -/
  ncnt : NotchCounts
  /-- `NOTCH[0..7][0..6]` (R39). -/
  notch : NotchSlots
  /-- `RFWD[0..7][0..65535]` (R40). -/
  rfwd : Bank
  /-- `RINV[0..7][0..65535]` (R41). -/
  rinv : Bank
  /-- `PLUG[0..65535]` (R42). -/
  plug : Table
  /-- `SBOX[0..255]` (R43). -/
  sbox : ByteTable
  /-- `ISBOX[0..255]` (R43). -/
  isbox : ByteTable
  /-- `CREG[0..15]` (R45). -/
  creg : Block
  /-- `BREG[0..15]` (R46). -/
  breg : Block
  /-- The model's own: what the host and the platform do next, oldest first (log 1). -/
  inputs : List Input
  /-- The model's own: the word the last host read returned (log 9). -/
  readData : Word
  /-- The model's own: how many free values have been drawn (log 3, 4). -/
  draws : Nat
  /-- The model's own: the parameter `PLUG_PAIR` this engine is built with (R7, R128; log 6). No step changes it. -/
  plugPairs : PlugParameter
  /-- The model's own: the parameter `SBOX_KEY_OFFSET` this engine is built with (R7, R130; log 7). No step changes it. -/
  sboxKeyOffset : Nat
deriving DecidableEq, Repr

/-- Why the machine stops with a fault: never. "No behaviour of the RSE faults the bus or stops the engine" (93; R311,
R316). Raised by nobody; safe (log 10). -/
inductive Fault where
deriving DecidableEq, Repr

/-- Why a command has no meaning. -/
inductive Refusal where
  /-- An arm of `exec` without a meaning. Raised by nobody here: every arm has one. Safe (log 10). -/
  | notModelled (mnemonic : String)
deriving DecidableEq, Repr

/-- The state after power-on reset (R50). DESIGN CHOICE (log 5): the values of `pending`, `pos`, `ncnt`, `notch` and the
five tables, which R50 leaves unspecified; and of the model's own fields (log 2, 9). The parameters `PLUG_PAIR` and
`SBOX_KEY_OFFSET` are at the defaults of R128 and R130 (log 6, 7). -/
def State.reset : State where
  din := Vector.replicate 4 0
  dout := Vector.replicate 4 0
  diag := false
  ie := false
  init := false
  busy := false
  done := false
  err := false
  ovr := false
  mode := false
  cst := false
  bst := false
  keymask := 0
  errcode := 0
  key := Vector.replicate 8 0
  pending := 0
  mkey := Vector.replicate 32 0
  pos := Vector.replicate 8 0
  ncnt := Vector.replicate 8 1
  notch := Vector.replicate 8 (Vector.replicate 7 0)
  rfwd := Vector.replicate 8 (Vector.replicate 65536 0)
  rinv := Vector.replicate 8 (Vector.replicate 65536 0)
  plug := Vector.replicate 65536 0
  sbox := Vector.replicate 256 0
  isbox := Vector.replicate 256 0
  creg := Vector.replicate 16 0
  breg := Vector.replicate 16 0
  inputs := []
  readData := 0
  draws := 0
  plugPairs := []
  sboxKeyOffset := Config.defaultSboxKeyOffset

end Sys2Proof.Machine
end

