-- ==== Sys2Proof/Machine/Operands.lean ====
section
/-! DEFINITION. Array access, the byte lanes of words, blocks and the key staging (00_scope R13, 20_memory R73, R74),
and the operand forms with their range checks (30_encoding R95 to R97). -/

namespace Sys2Proof.Machine

/-- Entry `i` of an array (R12). `i` is taken modulo the array's length, so that the read is total; every use has
`i` in range (R79, R95), where this is the entry itself. -/
def nth {α : Type} {n : Nat} [NeZero n] (v : Vector α n) (i : Nat) : α := v[i % n]'(Nat.mod_lt i (NeZero.pos n))

/-- `A[i] <- a` (R12), with the same reading of `i` as `nth`. -/
def upd {α : Type} {n : Nat} [NeZero n] (v : Vector α n) (i : Nat) (a : α) : Vector α n :=
  v.set (i % n) a (Nat.mod_lt i (NeZero.pos n))

/-- The entry of a 65536-entry table at a 16-bit index (R79). -/
def Table.at (t : Table) (x : Half) : Half := t[x.toNat]'x.isLt

/-- The entry of an S-box at a byte index (R79). -/
def ByteTable.at (t : ByteTable) (x : Byte) : Byte := t[x.toNat]'x.isLt

/-- Byte `k` of a word: bits `8k+7 : 8k` (R13, R73). -/
def byteOf (w : Word) (k : Nat) : Byte := w.extractLsb' (8 * k) 8

/-- `bytes4(w)` (R13). -/
def bytes4 (w : Word) : Vector Byte 4 := Vector.ofFn fun k => byteOf w k

/-- `word4(b0, b1, b2, b3)`: `b0` is the low byte (R13). -/
def word4 (b0 b1 b2 b3 : Byte) : Word := b3 ++ b2 ++ b1 ++ b0

/-- `blk(W0, W1, W2, W3)`: byte `i` is byte `i mod 4` of word `i div 4` (R13, R74). -/
def blk (w : Vector Word 4) : Block := Vector.ofFn fun i => byteOf (nth w (i / 4)) (i % 4)

/-- `unblk(b)`: word `j` is `word4(b[4j], b[4j+1], b[4j+2], b[4j+3])` (R13, R74). -/
def unblk (b : Block) : Vector Word 4 :=
  Vector.ofFn fun j => word4 (nth b (4 * j)) (nth b (4 * j + 1)) (nth b (4 * j + 2)) (nth b (4 * j + 3))

/-- The 32 staging bytes `KS[j] = bytes4(KEY[j div 4])[j mod 4]` (R36, R271). -/
def stagedKey (key : Vector Word 8) : Key := Vector.ofFn fun j => byteOf (nth key (j / 4)) (j % 4)

/-- `BMP(v)`: `v < 65536` (R15). -/
def bmp (v : Word) : Bool := decide (v.toNat < 65536)

/-- The code-point or value operand, the whole of `DIN[0]` (R75, R97). -/
def codePoint (s : State) : Word := nth s.din 0

/-- The block operand, `blk(DIN[0..3])` (R74, R97). -/
def blockOperand (s : State) : Block := blk s.din

/-- A table index field as an index (R96): `IDX` is 16 bits wide. -/
def tableIndex (idx : Nat) : Half := BitVec.ofNat 16 idx

/-- An S-box index field as an index (R96); in range `IDX` is at most 255 (R95). -/
def sboxIndex (idx : Nat) : Byte := BitVec.ofNat 8 idx

/-- The conditions of `BadOperand` (R95); `val` is `DIN[0]`. -/
def badOperand (i : Instr) (val : Word) : Bool :=
  match i with
  | .rdPos sel => decide (sel > 7)
  | .wrPos sel => decide (sel > 7) || decide (val.toNat > 0xFFFF)
  | .rdNotch sel n => decide (sel > 7) || decide (n > 6)
  | .wrNotch sel n => decide (sel > 7) || decide (n > 6) || decide (val.toNat > 0xFFFF)
  | .wrNcnt sel => decide (sel > 7) || decide (val.toNat < 1) || decide (val.toNat > 7)
  | .rdRfwd sel _ => decide (sel > 7)
  | .rdRinv sel _ => decide (sel > 7)
  | .rdSbox idx => decide (idx > 255)
  | .rdIsbox idx => decide (idx > 255)
  | .rdRkey sel => decide (sel > 14)
  | .init | .msgrst | .teardown => false
  | .cenc | .cdec | .benc | .bdec => false
  | .pbApply | .rotFwd | .rotBwd | .rotStep => false
  | .btFwd | .btInv | .btSub | .btShr | .btMix | .btArk | .btIsub | .btIshr | .btImix => false
  | .rdPlug _ | .rdCreg | .rdBreg => false

end Sys2Proof.Machine
end

