-- ==== Sys2Proof/Machine/Flags.lean ====
section
/-! DEFINITION. The status side: error codes (60_exceptions R300), the diagnostic class (30_encoding R105), the order of
the checks (R308), the words of `CTRL`, `STATUS` and `ERRCODE` (10_state R24, R25, R34), and `irq` (R320). -/

namespace Sys2Proof.Machine

/-- The 4-bit code of an error (R300). -/
def Err.code : Err → BitVec 4
  | .invalidKeyLength => 1
  | .notInitialized => 2
  | .invalidEncoding => 3
  | .bufferTooSmall => 4
  | .illegalCommand => 5
  | .badOperand => 6
  | .diagDisabled => 7

/-- `diagnostic(OP)`: the opcodes 0x20 to 0x3F of the map (R105). -/
def isDiagnostic (i : Instr) : Bool :=
  match i with
  | .init | .msgrst | .teardown => false
  | .cenc | .cdec | .benc | .bdec => false
  | .pbApply | .rotFwd | .rotBwd | .rotStep => true
  | .btFwd | .btInv | .btSub | .btShr | .btMix | .btArk | .btIsub | .btIshr | .btImix => true
  | .rdPos _ | .wrPos _ | .rdNotch _ _ | .wrNotch _ _ | .wrNcnt _ => true
  | .rdRfwd _ _ | .rdRinv _ _ | .rdPlug _ | .rdSbox _ | .rdIsbox _ | .rdRkey _ => true
  | .rdCreg | .rdBreg => true

/-- The checks of R308 after the decoding one, in their order: the first that fails is the error reported. -/
def check (i : Instr) (s : State) : Option Err :=
  if isDiagnostic i = true ∧ s.diag = false then some .diagDisabled
  else if i ≠ .init ∧ s.init = false then some .notInitialized
  else if badOperand i (codePoint s) = true then some .badOperand
  else if i = .init ∧ s.keymask ≠ 0xFF then some .invalidKeyLength
  else none

/-- A flag as a one-bit word. -/
def bit (b : Bool) : BitVec 1 := BitVec.ofBool b

/-- The word a read of `CTRL` returns: `DIAG` at bit 0, `IE` at bit 1, zero above (R24, R64). -/
def ctrlWord (s : State) : Word := (0 : BitVec 30) ++ bit s.ie ++ bit s.diag

/-- The word a read of `STATUS` returns (R25, R64). -/
def statusWord (s : State) : Word :=
  (0 : BitVec 16) ++ s.keymask ++ bit s.bst ++ bit s.cst ++ bit s.mode ++ bit s.ovr ++ bit s.err ++ bit s.done
    ++ bit s.busy ++ bit s.init

/-- The word a read of `ERRCODE` returns (R34, R64). -/
def errcodeWord (s : State) : Word := s.errcode.setWidth 32

/-- The interrupt output `irq = STATUS.DONE AND CTRL.IE` (R48, R320). -/
def irq (s : State) : Bool := s.done && s.ie

end Sys2Proof.Machine
end

