-- ==== Sys2Proof/Machine/Ops.lean ====
section
/-! DEFINITION. The shared operations: accepting a command word (20_memory R68), completing a command, which is also how
an error is taken (60_exceptions R309, R312, R313), the results of R98, and the frame every meaning runs in. -/

namespace Sys2Proof.Machine

/-- Acceptance of a command word: `PENDING <- v; BUSY <- 1; DONE <- 0` and nothing else (R68). -/
def accept (v : Word) (s : State) : State := { s with pending := v, busy := true, done := false }

/-- The status every completion writes, with code `e`: `ERRCODE <- e`, `ERR <- 1` when `e` is nonzero, `DONE <- 1`,
`BUSY <- 0` (R312, R313). `OVR` is not written. -/
def complete (e : BitVec 4) (s : State) : State :=
  { s with errcode := e, err := s.err || decide (e ≠ 0), done := true, busy := false }

/-- A successful completion (R313). -/
def succeed (s : State) : State := complete 0 s

/-- Taking an error: a failed completion, which changes nothing but the completion status (R309, R315). There is no
handler to go to and nothing to return from (R315). -/
def fail (e : Err) (s : State) : State := complete e.code s

/-- The completion of a decoded command: the checks of R308, then the effect of its rule, then the status (R312). -/
def command (i : Instr) (effect : State → State) (s : State) : Host.Outcome State Fault Refusal :=
  match check i s with
  | some e => .next (fail e s)
  | none => .next (succeed (effect s))

/-- A code-point or table-entry result: `DOUT[0] <- c; DOUT[1..3] <- 0` (R98). -/
def writeValue (c : Word) (s : State) : State := { s with dout := #v[c, 0, 0, 0] }

/-- The notch readback: `DOUT[0]`, `DOUT[1]`, and zero above (R98). -/
def writePair (c d : Word) (s : State) : State := { s with dout := #v[c, d, 0, 0] }

/-- A block result: `DOUT[0..3] <- unblk(b)` (R98). -/
def writeBlock (b : Block) (s : State) : State := { s with dout := unblk b }

/-- The command word the completion step decodes: the engine fetches no instruction, it reads `PENDING` (R23, R312). -/
def fetchCommand (s : State) : Option Instr := decode s.pending

end Sys2Proof.Machine
end

