-- ==== Sys2Proof/Machine/KeySchedule.lean ====
section
/-! DEFINITION. The key-schedule generator (40_key_schedule): pure functions of the 32-byte key (R120).
The table builders are irreducible: the elaborator never unfolds 65536 entries by accident. -/

namespace Sys2Proof.Machine

/-- `K[j mod 32]` (R121 to R132). -/
def keyByte (k : Key) (j : Nat) : Byte := nth k j

/-- The identity table, `T[x] <- x` (R121, R129). -/
@[irreducible] def identityTable (w n : Nat) : Vector (BitVec w) n := Vector.ofFn fun x => BitVec.ofNat w x

/-- `swap T[i] and T[j]` (R121, R129); every use has both indices in range. -/
def swapEntries {α : Type} {n : Nat} (t : Vector α n) (i j : Nat) : Vector α n :=
  if h : i < n ∧ j < n then t.swap i j h.1 h.2 else t

/-- The swap partner `(kb(i) * i) mod (i + 1)` (R121). -/
def partner (kb : Nat → Byte) (i : Nat) : Nat := ((kb i).toNat * i) % (i + 1)

/-- The steps `i, i-1, ..., 1` of the keyed Fisher-Yates shuffle (R121). -/
def shuffleFrom {w n : Nat} (kb : Nat → Byte) : Nat → Vector (BitVec w) n → Vector (BitVec w) n
  | 0, t => t
  | i + 1, t => shuffleFrom kb i (swapEntries t (i + 1) (partner kb (i + 1)))

/-- `shuffle(N, kb)` (R121), with entries of `w` bits. -/
@[irreducible] def shuffle (w n : Nat) (kb : Nat → Byte) : Vector (BitVec w) n := shuffleFrom kb (n - 1) (identityTable w n)

/-- The writes `T[t[x]] <- x` for `x = m-1, ..., 0`. -/
def invertFrom {w n : Nat} [NeZero n] (t : Vector (BitVec w) n) : Nat → Vector (BitVec w) n → Vector (BitVec w) n
  | 0, acc => acc
  | x + 1, acc => invertFrom t x (upd acc (nth t x).toNat (BitVec.ofNat w x))

/-- The functional inverse of a permutation: the table with `inv[t[x]] = x` for every `x` (R127, R131). -/
@[irreducible] def invertTable {w n : Nat} [NeZero n] (t : Vector (BitVec w) n) : Vector (BitVec w) n :=
  invertFrom t n (identityTable w n)

/-- `KS_POS(r) = K[r mod 32] mod 65536` (R123). -/
def ksPos (k : Key) (r : Nat) : Half := (keyByte k r).setWidth 16

/-- `KS_NCNT(r) = (K[(r+1) mod 32] mod 7) + 1` (R124). -/
def ksNcnt (k : Key) (r : Nat) : BitVec 3 := BitVec.ofNat 3 ((keyByte k (r + 1)).toNat % 7 + 1)

/-- `KS_NOTCH(r, n)`: `(K[(r+n+2) mod 32] * 251) mod 65536` below the count, 0 from it on (R125). -/
def ksNotch (k : Key) (r n : Nat) : Half :=
  if n < (ksNcnt k r).toNat then BitVec.ofNat 16 ((keyByte k (r + n + 2)).toNat * Config.mult) else 0

/-- `KS_RFWD(r) = shuffle(65536, i -> K[(r + i) mod 32])` (R126). -/
def ksRfwd (k : Key) (r : Nat) : Table := shuffle 16 65536 fun i => keyByte k (r + i)

/-- `KS_RINV(r)`, the inverse of `KS_RFWD(r)` (R127). -/
def ksRinv (k : Key) (r : Nat) : Table := invertTable (ksRfwd k r)

/-- The default formula of `PLUG_PAIR(K, i)` (R128). -/
def defaultPlugPair (k : Key) (i : Nat) : Half × Half :=
  (BitVec.ofNat 16 ((keyByte k (4 * i)).toNat * Config.mult + (keyByte k (4 * i + 1)).toNat),
   BitVec.ofNat 16 ((keyByte k (4 * i + 2)).toNat * Config.mult + (keyByte k (4 * i + 3)).toNat))

/-- `PLUG_PAIR(K, i)` at a value of the parameter (R7, R128): the pair listed for the key, else the default's. A step `i`
above 148 is never asked for (R129, R135). -/
def plugPair (pairs : PlugParameter) (k : Key) (i : Nat) : Half × Half :=
  match pairs.find? fun entry => entry.1 == k with
  | some entry => nth entry.2 i
  | none => defaultPlugPair k i

/-- The number of plugboard swaps, `(K[0] mod 100) + 50` (R129). -/
def plugSwaps (k : Key) : Nat := (keyByte k 0).toNat % 100 + 50

/-- The plugboard's construction for any `PLUG_PAIR` (R128: a parameter): swaps `0, 1, ..., S-1` in ascending order on
the identity (R129). -/
@[irreducible] def ksPlugWith (pair : Key → Nat → Half × Half) (k : Key) : Table :=
  (List.range (plugSwaps k)).foldl (fun t i => swapEntries t (pair k i).1.toNat (pair k i).2.toNat)
    (identityTable 16 65536)

/-- `KS_PLUG` (R129) at a value of the parameter `PLUG_PAIR`. -/
def ksPlug (pairs : PlugParameter) (k : Key) : Table := ksPlugWith (plugPair pairs) k

/-- `KS_SBOX` (R130) at a value of the parameter `SBOX_KEY_OFFSET`. -/
def ksSbox (offset : Nat) (k : Key) : ByteTable := shuffle 8 256 fun i => keyByte k (offset + i)

/-- `KS_ISBOX`, the inverse of `KS_SBOX` (R131). -/
def ksIsbox (offset : Nat) (k : Key) : ByteTable := invertTable (ksSbox offset k)

/-- `RK(round, i) = K[(i + round*4) mod 32]` (R44, R132). -/
def roundKeyByte (k : Key) (round i : Nat) : Byte := keyByte k (i + round * 4)

/-- The 16 bytes of one round key (R132, R225). -/
def roundKey (k : Key) (round : Nat) : Block := Vector.ofFn fun i => roundKeyByte k round i

/-- The eight initial positions (R123). -/
def ksPositions (k : Key) : Positions := Vector.ofFn fun r => ksPos k r

/-- The eight notch counts (R124). -/
def ksNotchCounts (k : Key) : NotchCounts := Vector.ofFn fun r => ksNcnt k r

/-- The 56 notch slots (R125). -/
def ksNotchSlots (k : Key) : NotchSlots := Vector.ofFn fun r => Vector.ofFn fun n => ksNotch k r n

/-- The eight forward tables (R126). -/
def ksForwardBank (k : Key) : Bank := Vector.ofFn fun r => ksRfwd k r

/-- The eight inverse tables (R127). -/
def ksInverseBank (k : Key) : Bank := Vector.ofFn fun r => ksRinv k r

end Sys2Proof.Machine
end

