-- ==== Sys2Proof/Machine/BlockTransform.lean ====
section
/-! DEFINITION. The SPN block transform (43_block_transform): its steps and their stated inverses, the composed
transforms, and the twelve diagnostic commands over them, the S-boxes and the round keys. `InvMixColumns` is the stated
formula, which does not invert `MixColumns` (R206, R211; 90_conflicts C1). -/

namespace Sys2Proof.Machine

/-- A block from its byte at row `q`, column `j`, which is byte `4q + j` (R200). -/
def ofRows (f : Nat → Nat → Byte) : Block := Vector.ofFn fun i => f (i / 4) (i % 4)

/-- Byte `B[4q + j]`: row `q`, column `j` (R200); a mix group is a row (R200, 90_conflicts C3). -/
def rowByte (b : Block) (q j : Nat) : Byte := nth b (4 * q + j)

/-- `SubBytes(B)[i] = SBOX[B[i]]` (R201). -/
def subBytes (sbox : ByteTable) (b : Block) : Block := Vector.ofFn fun i => ByteTable.at sbox b[i]

/-- `ShiftRows(B)[4q + j] = B[4q + ((j + q) mod 4)]` (R202). -/
def shiftRows (b : Block) : Block := ofRows fun q j => rowByte b q ((j + q) % 4)

/-- `MixColumns`: each group `(a, b, c, d)` becomes `(a^b, b^c, c^d, d^a)` (R203). -/
def mixColumns (b : Block) : Block := ofRows fun q j => rowByte b q j ^^^ rowByte b q ((j + 1) % 4)

/-- `AddRoundKey(B)[i] = B[i] ^ RK(0, i)`, its own inverse (R204, R205). -/
def addRoundKey (k : Key) (b : Block) : Block := Vector.ofFn fun i => b[i] ^^^ roundKeyByte k 0 i

/-- `InvMixColumns`: each group `(a, b, c, d)` becomes `(d^a, a^b, b^c, c^d)` (R206). -/
def invMixColumns (b : Block) : Block := ofRows fun q j => rowByte b q ((j + 3) % 4) ^^^ rowByte b q j

/-- `InvShiftRows(B)[4q + j] = B[4q + ((j - q + 4) mod 4)]` (R207). -/
def invShiftRows (b : Block) : Block := ofRows fun q j => rowByte b q ((j + 4 - q) % 4)

/-- `InvSubBytes(B)[i] = ISBOX[B[i]]` (R208). -/
def invSubBytes (isbox : ByteTable) (b : Block) : Block := Vector.ofFn fun i => ByteTable.at isbox b[i]

/-- `BlockForward(B)` (R209). -/
def blockForward (sbox : ByteTable) (k : Key) (b : Block) : Block :=
  addRoundKey k (mixColumns (shiftRows (subBytes sbox b)))

/-- `BlockInverse(B)` (R210). -/
def blockInverse (isbox : ByteTable) (k : Key) (b : Block) : Block :=
  invSubBytes isbox (invShiftRows (invMixColumns (addRoundKey k b)))

/-- `DOUT[0..3] <- unblk(F(B))` for the block operand `B`: the form of the nine commands of R214 to R222. -/
def transform (f : Block → Block) (s : State) : State := writeBlock (f (blockOperand s)) s

/-- `BT_FWD` (R214). -/
def execBtFwd (s : State) : Host.Outcome State Fault Refusal :=
  command .btFwd (fun s => transform (blockForward s.sbox s.mkey) s) s

/-- `BT_INV` (R215). -/
def execBtInv (s : State) : Host.Outcome State Fault Refusal :=
  command .btInv (fun s => transform (blockInverse s.isbox s.mkey) s) s

/-- `BT_SUB` (R216). -/
def execBtSub (s : State) : Host.Outcome State Fault Refusal :=
  command .btSub (fun s => transform (subBytes s.sbox) s) s

/-- `BT_SHR` (R217). -/
def execBtShr (s : State) : Host.Outcome State Fault Refusal :=
  command .btShr (fun s => transform shiftRows s) s

/-- `BT_MIX` (R218). -/
def execBtMix (s : State) : Host.Outcome State Fault Refusal :=
  command .btMix (fun s => transform mixColumns s) s

/-- `BT_ARK` (R219). -/
def execBtArk (s : State) : Host.Outcome State Fault Refusal :=
  command .btArk (fun s => transform (addRoundKey s.mkey) s) s

/-- `BT_ISUB` (R220). -/
def execBtIsub (s : State) : Host.Outcome State Fault Refusal :=
  command .btIsub (fun s => transform (invSubBytes s.isbox) s) s

/-- `BT_ISHR` (R221). -/
def execBtIshr (s : State) : Host.Outcome State Fault Refusal :=
  command .btIshr (fun s => transform invShiftRows s) s

/-- `BT_IMIX` (R222). -/
def execBtImix (s : State) : Host.Outcome State Fault Refusal :=
  command .btImix (fun s => transform invMixColumns s) s

/-- `RD_SBOX x` (R223). -/
def execRdSbox (idx : Nat) (s : State) : Host.Outcome State Fault Refusal :=
  command (.rdSbox idx) (fun s => writeValue ((ByteTable.at s.sbox (sboxIndex idx)).setWidth 32) s) s

/-- `RD_ISBOX x` (R224). -/
def execRdIsbox (idx : Nat) (s : State) : Host.Outcome State Fault Refusal :=
  command (.rdIsbox idx) (fun s => writeValue ((ByteTable.at s.isbox (sboxIndex idx)).setWidth 32) s) s

/-- `RD_RKEY round` (R225). -/
def execRdRkey (sel : Nat) (s : State) : Host.Outcome State Fault Refusal :=
  command (.rdRkey sel) (fun s => writeBlock (roundKey s.mkey sel) s) s

end Sys2Proof.Machine
end

