-- ==== Sys2Proof/Machine/Plugboard.lean ====
section
/-! DEFINITION. The plugboard mixer (42_plugboard): `PlugApply` and its two diagnostic commands. -/

namespace Sys2Proof.Machine

/-- `PlugApply(v)`: the table's entry in the BMP, `v` itself outside it (R190). -/
def plugApply (plug : Table) (v : Word) : Word :=
  if bmp v then (Table.at plug (v.setWidth 16)).setWidth 32 else v

/-- `PB_APPLY` (R192). -/
def execPbApply (s : State) : Host.Outcome State Fault Refusal :=
  command .pbApply (fun s => writeValue (plugApply s.plug (codePoint s)) s) s

/-- `RD_PLUG x` (R193). -/
def execRdPlug (idx : Nat) (s : State) : Host.Outcome State Fault Refusal :=
  command (.rdPlug idx) (fun s => writeValue ((Table.at s.plug (tableIndex idx)).setWidth 32) s) s

end Sys2Proof.Machine
end

