-- ==== Sys2Proof/Machine/Rotor.lean ====
section
/-! DEFINITION. The rotor bank (41_rotor_bank): `RotorForward`, `RotorBackward`, `RotorStep`, and the ten diagnostic
commands over the rotor state. 16-bit arithmetic wraps modulo 65536, as the formulas of R150 to R152 do. -/

namespace Sys2Proof.Machine

/-- The rotors in ascending order (R150, R151). -/
def rotors : List Nat := [0, 1, 2, 3, 4, 5, 6, 7]

/-- Rotor `r` forward at its position: `(RFWD[r][(v + p) mod 65536] - p + 65536) mod 65536` (R150). -/
def forwardOne (rfwd : Bank) (pos : Positions) (r : Nat) (v : Half) : Half :=
  Table.at (nth rfwd r) (v + nth pos r) - nth pos r

/-- Rotor `r` backward at its position (R151). -/
def backwardOne (rinv : Bank) (pos : Positions) (r : Nat) (v : Half) : Half :=
  Table.at (nth rinv r) (v + nth pos r) - nth pos r

/-- `RotorForward(v)`: rotors 0 up to 7, a code point outside the BMP unchanged (R150). -/
def rotorForward (rfwd : Bank) (pos : Positions) (v : Word) : Word :=
  if bmp v then (rotors.foldl (fun u r => forwardOne rfwd pos r u) (v.setWidth 16)).setWidth 32 else v

/-- `RotorBackward(v)`: rotors 7 down to 0, a code point outside the BMP unchanged (R151). -/
def rotorBackward (rinv : Bank) (pos : Positions) (v : Word) : Word :=
  if bmp v then (rotors.foldr (fun r u => backwardOne rinv pos r u) (v.setWidth 16)).setWidth 32 else v

/-- `POS[r] in notchset(r)`, where `notchset(r) = { NOTCH[r][n] : n < NCNT[r] }` (R39, R152). -/
def onNotch (ncnt : NotchCounts) (notch : NotchSlots) (pos : Positions) (r : Nat) : Bool :=
  (List.range (nth ncnt r).toNat).any fun n => nth (nth notch r) n == nth pos r

/-- `POS[r] <- (POS[r] + 1) mod 65536` (R152). -/
def advance (pos : Positions) (r : Nat) : Positions := upd pos r (nth pos r + 1)

/-- The cascade's loop from rotor `r`, with `k` rotors above it (R152): it stops at a rotor that is not on a notch of
its own, and at rotor 7. -/
def cascade (ncnt : NotchCounts) (notch : NotchSlots) : Nat → Nat → Positions → Positions
  | 0, _, pos => pos
  | k + 1, r, pos => if onNotch ncnt notch pos r then cascade ncnt notch k (r + 1) (advance pos (r + 1)) else pos

/-- `RotorStep()`: the new positions (R152). -/
def rotorStep (ncnt : NotchCounts) (notch : NotchSlots) (pos : Positions) : Positions :=
  cascade ncnt notch 7 0 (advance pos 0)

/-- `RotorForward` at the state's tables and positions. -/
def State.forward (s : State) (v : Word) : Word := rotorForward s.rfwd s.pos v

/-- `RotorBackward` at the state's tables and positions. -/
def State.backward (s : State) (v : Word) : Word := rotorBackward s.rinv s.pos v

/-- `RotorStep()` on the state: it writes `POS` alone (R152). -/
def State.stepRotors (s : State) : State := { s with pos := rotorStep s.ncnt s.notch s.pos }

/-- `ROT_FWD` (R155). -/
def execRotFwd (s : State) : Host.Outcome State Fault Refusal :=
  command .rotFwd (fun s => writeValue (s.forward (codePoint s)) s) s

/-- `ROT_BWD` (R156). -/
def execRotBwd (s : State) : Host.Outcome State Fault Refusal :=
  command .rotBwd (fun s => writeValue (s.backward (codePoint s)) s) s

/-- `ROT_STEP` (R157). -/
def execRotStep (s : State) : Host.Outcome State Fault Refusal :=
  command .rotStep (fun s => s.stepRotors) s

/-- `RD_POS r` (R158). -/
def execRdPos (sel : Nat) (s : State) : Host.Outcome State Fault Refusal :=
  command (.rdPos sel) (fun s => writeValue ((nth s.pos sel).setWidth 32) s) s

/-- `WR_POS r` (R159). -/
def execWrPos (sel : Nat) (s : State) : Host.Outcome State Fault Refusal :=
  command (.wrPos sel) (fun s => { s with pos := upd s.pos sel ((codePoint s).setWidth 16) }) s

/-- `RD_NOTCH r, n` (R160). -/
def execRdNotch (sel n : Nat) (s : State) : Host.Outcome State Fault Refusal :=
  command (.rdNotch sel n)
    (fun s => writePair ((nth (nth s.notch sel) n).setWidth 32) ((nth s.ncnt sel).setWidth 32) s) s

/-- `WR_NOTCH r, n` (R161). -/
def execWrNotch (sel n : Nat) (s : State) : Host.Outcome State Fault Refusal :=
  command (.wrNotch sel n)
    (fun s => { s with notch := upd s.notch sel (upd (nth s.notch sel) n ((codePoint s).setWidth 16)) }) s

/-- `WR_NCNT r` (R162). -/
def execWrNcnt (sel : Nat) (s : State) : Host.Outcome State Fault Refusal :=
  command (.wrNcnt sel) (fun s => { s with ncnt := upd s.ncnt sel ((codePoint s).setWidth 3) }) s

/-- `RD_RFWD r, x` (R163). -/
def execRdRfwd (sel idx : Nat) (s : State) : Host.Outcome State Fault Refusal :=
  command (.rdRfwd sel idx)
    (fun s => writeValue ((Table.at (nth s.rfwd sel) (tableIndex idx)).setWidth 32) s) s

/-- `RD_RINV r, x` (R164). -/
def execRdRinv (sel idx : Nat) (s : State) : Host.Outcome State Fault Refusal :=
  command (.rdRinv sel idx)
    (fun s => writeValue ((Table.at (nth s.rinv sel) (tableIndex idx)).setWidth 32) s) s

end Sys2Proof.Machine
end

