-- ==== Sys2Proof/Machine/Chaining.lean ====
section
/-! DEFINITION. The feedback/chaining controller (44_chaining): the four unit commands and the readback of the two
chaining registers. -/

namespace Sys2Proof.Machine

/-- `CREG[0..3]`, the bytes the character path reads and writes (R240). -/
def cregLow (creg : Block) : Vector Byte 4 := Vector.ofFn fun k => nth creg k

/-- `for k = 0 up to 3: CREG[k] <- o[k]`; bytes 4 to 15 are not touched (R241, R242). -/
def writeCregLow (creg : Block) (o : Vector Byte 4) : Block :=
  Vector.ofFn fun i => if i.val < 4 then nth o i else creg[i]

/-- Bytewise exclusive-or of two byte lists. -/
def xorBytes {n : Nat} (a b : Vector Byte n) : Vector Byte n := Vector.ofFn fun k => a[k] ^^^ b[k]

/-- `word4` of a list of four bytes (R13). -/
def joinBytes (b : Vector Byte 4) : Word := word4 b[0] b[1] b[2] b[3]

/-- The value `v` of `CENC` before the feedback: plugboard, forward at the old positions, backward at the stepped
positions (R241). -/
def encryptValue (s : State) (cp : Word) : Word :=
  s.stepRotors.backward (s.forward (plugApply s.plug cp))

/-- The value of `CDEC` after the feedback: backward at the old positions, forward at the stepped positions, plugboard
(R242). -/
def decryptValue (s : State) (v : Word) : Word :=
  plugApply s.plug (s.stepRotors.forward (s.backward v))

/-- The effect of `CENC` (R241). -/
def encryptChar (s : State) : State :=
  let o := xorBytes (bytes4 (encryptValue s (codePoint s))) (cregLow s.creg)
  { writeValue (joinBytes o) s.stepRotors with creg := writeCregLow s.creg o, mode := false, cst := true }

/-- The effect of `CDEC` (R242): `CREG` takes the input's bytes. -/
def decryptChar (s : State) : State :=
  let ib := bytes4 (codePoint s)
  let m := xorBytes ib (cregLow s.creg)
  { writeValue (decryptValue s (joinBytes m)) s.stepRotors with
    creg := writeCregLow s.creg ib, mode := true, cst := true }

/-- The effect of `BENC` (R246). -/
def encryptBlock (s : State) : State :=
  let o := blockForward s.sbox s.mkey (xorBytes (blockOperand s) s.breg)
  { writeBlock o s with breg := o, mode := false, bst := true }

/-- The effect of `BDEC` (R247): `BREG` takes the input block. -/
def decryptBlock (s : State) : State :=
  let c := blockOperand s
  { writeBlock (xorBytes (blockInverse s.isbox s.mkey c) s.breg) s with breg := c, mode := true, bst := true }

/-- `CENC` (R241). -/
def execCenc (s : State) : Host.Outcome State Fault Refusal := command .cenc encryptChar s

/-- `CDEC` (R242). -/
def execCdec (s : State) : Host.Outcome State Fault Refusal := command .cdec decryptChar s

/-- `BENC` (R246). -/
def execBenc (s : State) : Host.Outcome State Fault Refusal := command .benc encryptBlock s

/-- `BDEC` (R247). -/
def execBdec (s : State) : Host.Outcome State Fault Refusal := command .bdec decryptBlock s

/-- `RD_CREG` (R249). -/
def execRdCreg (s : State) : Host.Outcome State Fault Refusal :=
  command .rdCreg (fun s => writeBlock s.creg s) s

/-- `RD_BREG` (R250). -/
def execRdBreg (s : State) : Host.Outcome State Fault Refusal :=
  command .rdBreg (fun s => writeBlock s.breg s) s

end Sys2Proof.Machine
end

