-- ==== Sys2Proof/Machine/Context.lean ====
section
/-! DEFINITION. The context commands (45_context): `INIT`, `MSGRST`, `TEARDOWN`. -/

namespace Sys2Proof.Machine

/-- The zero block, a chaining register at the start of a message (R45, R46). -/
def zeroBlock : Block := Vector.replicate 16 0

/-- The context of the key `k` at the start of a message: every write of R271, with `k` the staged key. -/
def loadContext (k : Key) (s : State) : State :=
  { s with
    mkey := k
    rfwd := ksForwardBank k
    rinv := ksInverseBank k
    pos := ksPositions k
    ncnt := ksNotchCounts k
    notch := ksNotchSlots k
    plug := ksPlug s.plugPairs k
    sbox := ksSbox s.sboxKeyOffset k
    isbox := ksIsbox s.sboxKeyOffset k
    creg := zeroBlock
    breg := zeroBlock
    key := Vector.replicate 8 0
    keymask := 0
    init := true
    mode := false
    cst := false
    bst := false }

/-- The effect of `INIT`: the context of the staged key (R271). -/
def initContext (s : State) : State := loadContext (stagedKey s.key) s

/-- The effect of `MSGRST` (R272). -/
def resetMessage (s : State) : State :=
  { s with
    pos := ksPositions s.mkey
    creg := zeroBlock
    breg := zeroBlock
    cst := false
    bst := false }

/-- The effect of `TEARDOWN` (R273). The eight fields it leaves unspecified take free values, the next draw (log 4). -/
def destroyContext (s : State) : State :=
  { s with
    mkey := Vector.replicate 32 0
    creg := zeroBlock
    breg := zeroBlock
    key := Vector.replicate 8 0
    keymask := 0
    din := Vector.replicate 4 0
    dout := Vector.replicate 4 0
    init := false
    mode := false
    cst := false
    bst := false
    pos := Config.freePos s.draws
    ncnt := Config.freeNcnt s.draws
    notch := Config.freeNotch s.draws
    rfwd := Config.freeRfwd s.draws
    rinv := Config.freeRinv s.draws
    plug := Config.freePlug s.draws
    sbox := Config.freeSbox s.draws
    isbox := Config.freeIsbox s.draws
    draws := s.draws + 1 }

/-- `INIT` (R271). -/
def execInit (s : State) : Host.Outcome State Fault Refusal := command .init initContext s

/-- `MSGRST` (R272). -/
def execMsgrst (s : State) : Host.Outcome State Fault Refusal := command .msgrst resetMessage s

/-- `TEARDOWN` (R273). -/
def execTeardown (s : State) : Host.Outcome State Fault Refusal := command .teardown destroyContext s

end Sys2Proof.Machine
end

