-- ==== Sys2Proof/Machine/Dispatch.lean ====
section
/-! DEFINITION. Which meaning each command has: one arm per constructor of Instr (30_encoding R92). -/

namespace Sys2Proof.Machine

/-- The completion of a decoded command (60_exceptions R312): its meaning makes the checks of R308, has the effect of
its rule or fails, and writes the completion status. -/
def exec (i : Instr) (s : State) : Host.Outcome State Fault Refusal :=
  match i with
  | .init => Sys2Proof.Machine.execInit s
  | .msgrst => Sys2Proof.Machine.execMsgrst s
  | .teardown => Sys2Proof.Machine.execTeardown s
  | .cenc => Sys2Proof.Machine.execCenc s
  | .cdec => Sys2Proof.Machine.execCdec s
  | .benc => Sys2Proof.Machine.execBenc s
  | .bdec => Sys2Proof.Machine.execBdec s
  | .pbApply => Sys2Proof.Machine.execPbApply s
  | .rotFwd => Sys2Proof.Machine.execRotFwd s
  | .rotBwd => Sys2Proof.Machine.execRotBwd s
  | .rotStep => Sys2Proof.Machine.execRotStep s
  | .btFwd => Sys2Proof.Machine.execBtFwd s
  | .btInv => Sys2Proof.Machine.execBtInv s
  | .btSub => Sys2Proof.Machine.execBtSub s
  | .btShr => Sys2Proof.Machine.execBtShr s
  | .btMix => Sys2Proof.Machine.execBtMix s
  | .btArk => Sys2Proof.Machine.execBtArk s
  | .btIsub => Sys2Proof.Machine.execBtIsub s
  | .btIshr => Sys2Proof.Machine.execBtIshr s
  | .btImix => Sys2Proof.Machine.execBtImix s
  | .rdPos sel => Sys2Proof.Machine.execRdPos sel s
  | .wrPos sel => Sys2Proof.Machine.execWrPos sel s
  | .rdNotch sel n => Sys2Proof.Machine.execRdNotch sel n s
  | .wrNotch sel n => Sys2Proof.Machine.execWrNotch sel n s
  | .wrNcnt sel => Sys2Proof.Machine.execWrNcnt sel s
  | .rdRfwd sel idx => Sys2Proof.Machine.execRdRfwd sel idx s
  | .rdRinv sel idx => Sys2Proof.Machine.execRdRinv sel idx s
  | .rdPlug idx => Sys2Proof.Machine.execRdPlug idx s
  | .rdSbox idx => Sys2Proof.Machine.execRdSbox idx s
  | .rdIsbox idx => Sys2Proof.Machine.execRdIsbox idx s
  | .rdRkey sel => Sys2Proof.Machine.execRdRkey sel s
  | .rdCreg => Sys2Proof.Machine.execRdCreg s
  | .rdBreg => Sys2Proof.Machine.execRdBreg s

end Sys2Proof.Machine
end

