-- ==== Sys2Proof/Machine/Window.lean ====
section
/-! DEFINITION. The register window (20_memory R60 to R72): the map, host reads and host writes, and power-on reset
(70_reset R340, R342). -/

namespace Sys2Proof.Machine

/-- What a window offset names (R62). -/
inductive WindowReg where
  | id
  | ctrl
  | status
  | errcode
  | cmd
  | din (k : Fin 4)
  | dout (k : Fin 4)
  | key (j : Fin 8)
  | reserved
deriving DecidableEq, Repr

/-- The window offset of a host address, if it lies in `BASE .. BASE + 0xFF` (R60). Log 8. -/
def windowOffset (addr : Nat) : Option (BitVec 8) :=
  if Config.base ≤ addr ∧ addr < Config.base + 256 then some (BitVec.ofNat 8 (addr - Config.base)) else none

/-- The register at a byte offset: address bits 7:2 select it, bits 1:0 are ignored (R61); the map is that of R62. -/
def windowReg (off : BitVec 8) : WindowReg :=
  match off.toNat / 4 with
  | 0 => .id
  | 1 => .ctrl
  | 2 => .status
  | 3 => .errcode
  | 4 => .cmd
  | 8 => .din 0
  | 9 => .din 1
  | 10 => .din 2
  | 11 => .din 3
  | 12 => .dout 0
  | 13 => .dout 1
  | 14 => .dout 2
  | 15 => .dout 3
  | 16 => .key 0
  | 17 => .key 1
  | 18 => .key 2
  | 19 => .key 3
  | 20 => .key 4
  | 21 => .key 5
  | 22 => .key 6
  | 23 => .key 7
  | _ => .reserved

/-- The word `MemRead` returns (R64, R72): a read of `DOUT` while busy is a free draw (log 3). -/
def readValue (r : WindowReg) (s : State) : Word :=
  match r with
  | .id => Config.idValue
  | .ctrl => ctrlWord s
  | .status => statusWord s
  | .errcode => errcodeWord s
  | .cmd => 0
  | .din k => s.din[k]
  | .dout k => if s.busy then Config.freeDout s.draws else s.dout[k]
  | .key _ => 0
  | .reserved => 0

/-- Whether a read takes a free draw: `DOUT` while busy (R72). -/
def readDraws (r : WindowReg) (s : State) : Bool :=
  match r with
  | .dout _ => s.busy
  | _ => false

/-- `MemRead(off, 4)`: no side effect on the engine's state (R64); the word goes to the model's `readData` (log 9). -/
def hostRead (off : BitVec 8) (s : State) : State :=
  { s with
    readData := readValue (windowReg off) s
    draws := if readDraws (windowReg off) s then s.draws + 1 else s.draws }

/-- A write while `BUSY = 0`, register by register (R66 to R71, R63). -/
def writeIdle (r : WindowReg) (v : Word) (s : State) : State :=
  match r with
  | .ctrl => { s with diag := v.getLsbD 0, ie := v.getLsbD 1 }
  | .status =>
    { s with done := s.done && !v.getLsbD 2, err := s.err && !v.getLsbD 3, ovr := s.ovr && !v.getLsbD 4 }
  | .cmd => accept v s
  | .din k => { s with din := s.din.set k v }
  | .key j => { s with key := s.key.set j v, keymask := s.keymask ||| (1#8 <<< j.val) }
  | .id => s
  | .errcode => s
  | .dout _ => s
  | .reserved => s

/-- `MemWrite(off, 4, v)`: while busy it is discarded and sets `OVR` (R65). -/
def hostWrite (off : BitVec 8) (v : Word) (s : State) : State :=
  if s.busy then { s with ovr := true } else writeIdle (windowReg off) v s

/-- Power-on reset: every field of the engine takes its value of R50, whatever the engine was doing (R340, R342). The
schedule, the last word read, the count of draws and the two build parameters are no state of the engine's and stay (log 16). -/
def powerOn (s : State) : State :=
  { State.reset with
    inputs := s.inputs
    readData := s.readData
    draws := s.draws
    plugPairs := s.plugPairs
    sboxKeyOffset := s.sboxKeyOffset }

end Sys2Proof.Machine
end

