-- ==== Sys2Proof/Machine/Step.lean ====
section
/-! DEFINITION. One step of the two agents (00_scope R9, 20_memory R80): the next host access, or the engine's
completion of the command in progress (60_exceptions R312). -/

namespace Sys2Proof.Machine

/-- `Complete()` (R312): decode `PENDING`, then check, execute and report. A word that does not decode takes
`IllegalCommand`. -/
def completion (s : State) : Host.Outcome State Fault Refusal :=
  match fetchCommand s with
  | some i => exec i s
  | none => .next (fail .illegalCommand s)

/-- The engine's turn: the completion step is enabled while `BUSY = 1` (R312); otherwise the engine waits (R341). -/
def engineTurn (s : State) : Host.Outcome State Fault Refusal :=
  if s.busy then completion s else .next s

/-- One step: the oldest entry of the schedule; with none left, the engine's turn (R350; log 1). -/
def step (s : State) : Host.Outcome State Fault Refusal :=
  match s.inputs with
  | [] => engineTurn s
  | .write off v :: rest => .next (hostWrite off v { s with inputs := rest })
  | .read off :: rest => .next (hostRead off { s with inputs := rest })
  | .engine :: rest => engineTurn { s with inputs := rest }
  | .powerOnReset :: rest => .next (powerOn { s with inputs := rest })

/-- The schedule with the engine's turn first. -/
def engineNext (inputs : List Input) : List Input :=
  match inputs with
  | [] => []
  | i :: rest => .engine :: i :: rest

/-- `s` with the command word accepted, as a write of it to `CMD` does (R68), and the engine's turn next: the very next
step completes it (log 2). -/
def State.withFetchWord (s : State) (nbits w : Nat) : State :=
  { accept (tableWord nbits w) s with inputs := engineNext s.inputs }

end Sys2Proof.Machine
end

