-- ==== Sys2Proof/Safety.lean ====
section
/-! DEFINITION. What counts as a safe run, and the invariants of the engine, in the terms the claims use
(10_state R20 to R51, 20_memory R82, 60_exceptions R300, R307, R311, R316). -/

namespace Sys2Proof.Safety

open Sys2Proof.Machine

/-- The step neither faults nor refuses: "No behaviour of the RSE faults the bus or stops the engine" (93). -/
def Proceeds (s : State) : Prop := ∃ t, step s = .next t

/-- `k` steps end in a state, none of them a stop. -/
def RunsTo (k : Nat) (s t : State) : Prop := core.run k s = .next t

/-- The derived structures are those the key schedule gives for the key (R82, R271). -/
def TablesFollowKey (s : State) : Prop :=
  s.rfwd = ksForwardBank s.mkey ∧ s.rinv = ksInverseBank s.mkey ∧ s.plug = ksPlug s.plugPairs s.mkey ∧
    s.sbox = ksSbox s.sboxKeyOffset s.mkey ∧ s.isbox = ksIsbox s.sboxKeyOffset s.mkey

/-- `RINV[r]` undoes `RFWD[r]` and the reverse, for every rotor (R49 item 2). -/
def BanksInverse (rfwd rinv : Bank) : Prop :=
  ∀ r < 8, ∀ x : Half, Table.at (nth rinv r) (Table.at (nth rfwd r) x) = x ∧
    Table.at (nth rfwd r) (Table.at (nth rinv r) x) = x

/-- `ISBOX` undoes `SBOX` and the reverse (R49 item 2). -/
def SboxesInverse (sbox isbox : ByteTable) : Prop :=
  ∀ x : Byte, ByteTable.at isbox (ByteTable.at sbox x) = x ∧ ByteTable.at sbox (ByteTable.at isbox x) = x

/-- The table is a permutation of its domain (R49 item 1). -/
def TablePermutes (t : Table) : Prop := Function.Bijective (Table.at t)

/-- `ERRCODE` holds 0 or a code some command raises: 3, 4 and 8 to 15 never appear (R303, R307). -/
def ErrcodeLegal (s : State) : Prop := s.errcode.toNat ∈ [0, 1, 2, 5, 6, 7]

/-- `CREG[4..15]` are 0 (R45, R49 item 4). -/
def CregHighZero (s : State) : Prop := ∀ i, 4 ≤ i → i < 16 → nth s.creg i = 0

/-- Every notch count is in 1..7 (R39, R49 item 3). -/
def NotchCountsLegal (s : State) : Prop := ∀ r < 8, 1 ≤ (nth s.ncnt r).toNat ∧ (nth s.ncnt r).toNat ≤ 7

/-- A staging word that `KEYMASK` does not mark has not been written since it was zeroed (R33, R36, R50). -/
def UnmarkedKeysZero (s : State) : Prop := ∀ j < 8, s.keymask.getLsbD j = false → nth s.key j = 0

/-- While uninitialized, the master key, both chaining registers and the stream bits are zero (R50, R273). -/
def SecretsErased (s : State) : Prop :=
  s.mkey = Vector.replicate 32 0 ∧ s.creg = zeroBlock ∧ s.breg = zeroBlock ∧
    s.mode = false ∧ s.cst = false ∧ s.bst = false

/-- The invariant of the engine: what holds at power-on reset and after every step. -/
structure EngineInvariant (s : State) : Prop where
  errcode : ErrcodeLegal s
  busyNotDone : s.busy = true → s.done = false
  cregHigh : CregHighZero s
  unmarkedKeys : UnmarkedKeysZero s
  tables : s.init = true → TablesFollowKey s
  notchCounts : s.init = true → NotchCountsLegal s
  erased : s.init = false → SecretsErased s

/-- The state with what no command can observe blanked out (R47, R51): the tables and the rotor state while
uninitialized, and `PENDING` while idle. -/
def visible (s : State) : State :=
  { s with
    pending := if s.busy then s.pending else 0
    pos := if s.init then s.pos else State.reset.pos
    ncnt := if s.init then s.ncnt else State.reset.ncnt
    notch := if s.init then s.notch else State.reset.notch
    rfwd := if s.init then s.rfwd else State.reset.rfwd
    rinv := if s.init then s.rinv else State.reset.rinv
    plug := if s.init then s.plug else State.reset.plug
    sbox := if s.init then s.sbox else State.reset.sbox
    isbox := if s.init then s.isbox else State.reset.isbox }

/-- A schedule entry that is a host access: no engine turn and no reset. -/
def isAccess : Input → Bool
  | .write _ _ => true
  | .read _ => true
  | .engine => false
  | .powerOnReset => false

/-- A schedule entry that is a host write. -/
def isWrite : Input → Bool
  | .write _ _ => true
  | .read _ => false
  | .engine => false
  | .powerOnReset => false

/-- The state after a failed completion with code `e`: R309 names the only four fields it changes. -/
def failedWith (e : BitVec 4) (s : State) : State := { s with errcode := e, err := true, done := true, busy := false }

/-- The state with the completion status of a success: `ERR` and `OVR` stay as they are (R313). -/
def succeeded (s : State) : State := { s with errcode := 0, done := true, busy := false }

/-- The opcode table of the spec: the mask and the match of each row of spec/opcode_table.json (R92). -/
def opcodeTable : List (Word × Word) :=
  [(0xFFFFFFFF, 0x00000001),  -- INIT
   (0xFFFFFFFF, 0x00000002),  -- MSGRST
   (0xFFFFFFFF, 0x00000003),  -- TEARDOWN
   (0xFFFFFFFF, 0x00000010),  -- CENC
   (0xFFFFFFFF, 0x00000011),  -- CDEC
   (0xFFFFFFFF, 0x00000018),  -- BENC
   (0xFFFFFFFF, 0x00000019),  -- BDEC
   (0xFFFFFFFF, 0x00000020),  -- PB_APPLY
   (0xFFFFFFFF, 0x00000021),  -- ROT_FWD
   (0xFFFFFFFF, 0x00000022),  -- ROT_BWD
   (0xFFFFFFFF, 0x00000023),  -- ROT_STEP
   (0xFFFFFFFF, 0x00000024),  -- BT_FWD
   (0xFFFFFFFF, 0x00000025),  -- BT_INV
   (0xFFFFFFFF, 0x00000026),  -- BT_SUB
   (0xFFFFFFFF, 0x00000027),  -- BT_SHR
   (0xFFFFFFFF, 0x00000028),  -- BT_MIX
   (0xFFFFFFFF, 0x00000029),  -- BT_ARK
   (0xFFFFFFFF, 0x0000002A),  -- BT_ISUB
   (0xFFFFFFFF, 0x0000002B),  -- BT_ISHR
   (0xFFFFFFFF, 0x0000002C),  -- BT_IMIX
   (0xFFFFF0FF, 0x00000030),  -- RD_POS
   (0xFFFFF0FF, 0x00000031),  -- WR_POS
   (0xFFFF80FF, 0x00000032),  -- RD_NOTCH
   (0xFFFF80FF, 0x00000033),  -- WR_NOTCH
   (0xFFFFF0FF, 0x00000034),  -- WR_NCNT
   (0x0000F0FF, 0x00000038),  -- RD_RFWD
   (0x0000F0FF, 0x00000039),  -- RD_RINV
   (0x0000FFFF, 0x0000003A),  -- RD_PLUG
   (0x0000FFFF, 0x0000003B),  -- RD_SBOX
   (0x0000FFFF, 0x0000003C),  -- RD_ISBOX
   (0xFFFFF0FF, 0x0000003D),  -- RD_RKEY
   (0xFFFFFFFF, 0x0000003E),  -- RD_CREG
   (0xFFFFFFFF, 0x0000003F)]  -- RD_BREG

/-- The word matches a row of the opcode table: its opcode is assigned, bit 15 and every unused field are 0 (R92, R93). -/
def InOpcodeTable (w : Word) : Prop := ∃ row ∈ opcodeTable, w &&& row.1 = row.2

/-- `f` applied to each of the four bytes of a word (R13). -/
def mapBytes (f : Byte → Byte) (w : Word) : Word :=
  word4 (f (byteOf w 0)) (f (byteOf w 1)) (f (byteOf w 2)) (f (byteOf w 3))

/-- Bytes `4q .. 4q+3` of the master key as one word: the round-key lane of row `q` (R204, R213). -/
def keyWord (k : Key) (q : Nat) : Word :=
  word4 (nth k (4 * q)) (nth k (4 * q + 1)) (nth k (4 * q + 2)) (nth k (4 * q + 3))

/-- The low four bytes of `CREG` as one word (R243). -/
def cregWord (b : Block) : Word := word4 (nth b 0) (nth b 1) (nth b 2) (nth b 3)

/-- Rotor `r` stands on a notch of its own: a slot below its count holds its position (R39, R152). -/
def StandsOnNotch (s : State) (pos : Positions) (r : Nat) : Prop :=
  ∃ n < (nth s.ncnt r).toNat, nth (nth s.notch r) n = nth pos r

end Sys2Proof.Safety
end

