-- ==== Sys2Proof/Certificates/Slice0/Obligations.lean ====
section
/-! DEFINITION. The statements for the provers, one `def Obligations.<Name> : Prop` each. `R<n>` is a rule of spec/; a
docstring that names a log entry says that the clause is the model's choice. -/

open Sys2Proof Sys2Proof.Machine Sys2Proof.Safety

/-! ### Command words (30_encoding) -/

/-- Decoding the word of a well-formed command gives the command, for every operand an encoding admits (R94, R104). -/
def Obligations.DecodeInvertsEncode : Prop :=
  ∀ i : Instr, wellFormed i = true → decode (encode i) = some i

/-- A word that decodes is the word of the command it decodes to, and that command is well-formed (R91, R94, R104). -/
def Obligations.EncodeInvertsDecode : Prop :=
  ∀ (w : Word) (i : Instr), decode w = some i → wellFormed i = true ∧ encode i = w

/-- A word decodes exactly when it matches a row of the opcode table (R92, R93, R94, R99). -/
def Obligations.DecodeFollowsOpcodeTable : Prop :=
  ∀ w : Word, (decode w).isSome = true ↔ InOpcodeTable w

/-- The word of a command is assembled from its fields, with bit 15 zero; the examples of R104. -/
def Obligations.WordsAreAssembledFromFields : Prop :=
  (∀ i : Instr, wellFormed i = true →
    (encode i).toNat = opcode i + 256 * selOperand i + 4096 * nOperand i + 65536 * idxOperand i ∧
      selOperand i < 16 ∧ nOperand i < 8 ∧ idxOperand i < 65536 ∧ (encode i).getLsbD 15 = false) ∧
  encode .cenc = 0x00000010 ∧ encode (.rdRfwd 3 0x41) = 0x00410338 ∧ encode (.wrNotch 1 2) = 0x00002133

/-- Words written out from the spec's encodings decode to the commands they stand for (R90, R92, R104). -/
def Obligations.SampleWordsDecode : Prop :=
  decode 0x00000001 = some .init ∧ decode 0x00000019 = some .bdec ∧ decode 0x00000530 = some (.rdPos 5) ∧
    decode 0x00002133 = some (.wrNotch 1 2) ∧ decode 0x00410338 = some (.rdRfwd 3 0x41) ∧
    decode 0x01F9003A = some (.rdPlug 0x1F9) ∧ decode 0x00000E3D = some (.rdRkey 14)

/-! ### Steps (00_scope R9, 20_memory R80, 60_exceptions R312) -/

/-- The engine's turn completes the command `PENDING` decodes to: with the schedule drained, and with the engine's entry
at its head. The schedule is the model's form of the interleaving (log 1). -/
def Obligations.StepRunsDecodedCommand : Prop :=
  ∀ (s : State) (i : Instr), s.busy = true → decode s.pending = some i →
    (s.inputs = [] → step s = exec i s) ∧
    (∀ rest, s.inputs = .engine :: rest → step s = exec i { s with inputs := rest })

/-- A pending word that matches no row of the opcode table completes with code 5, whatever `INIT` and `DIAG` are, and
changes nothing but the completion status (R304, R309). -/
def Obligations.IllegalWordReportsIllegalCommand : Prop :=
  ∀ s : State, s.busy = true → ¬InOpcodeTable s.pending → engineTurn s = .next (failedWith 5 s)

/-- No step of any state faults or refuses (R311, R316). -/
def Obligations.EveryStepProceeds : Prop :=
  ∀ s : State, Proceeds s

/-- From every busy state, the engine is idle again after at most as many steps as the schedule has entries, and one
(R350; the schedule is the model's, log 1). -/
def Obligations.AcceptedCommandAlwaysEnds : Prop :=
  ∀ s : State, s.busy = true → ∃ k t, k ≤ s.inputs.length + 1 ∧ RunsTo k s t ∧ t.busy = false

/-- Host accesses before the completion change nothing a command reads: only `OVR`, if one of them is a write, and the
model's `readData` and `draws` (R64, R65, R77). -/
def Obligations.AccessesWhileBusyLeaveTheCommand : Prop :=
  ∀ (s : State) (l rest : List Input), s.busy = true → s.inputs = l ++ rest → (∀ x ∈ l, isAccess x = true) →
    ∃ t, RunsTo l.length s t ∧
      t = { s with inputs := rest, ovr := s.ovr || l.any isWrite, readData := t.readData, draws := t.draws }

/-! ### The register window (20_memory) -/

/-- A write while busy, at any offset, changes nothing except `OVR <- 1` (R65). -/
def Obligations.WriteWhileBusyIsDiscarded : Prop :=
  ∀ (s : State) (off : BitVec 8) (v : Word) (rest : List Input),
    s.inputs = .write off v :: rest → s.busy = true → step s = .next { s with inputs := rest, ovr := true }

/-- What a read returns at every offset, and that it changes no field of the engine (R21, R24, R25, R34, R62, R63, R64).
A read of `DOUT` while busy is the next statement's. -/
def Obligations.ReadsReturnTheRegisters : Prop :=
  ∀ (s : State) (off : BitVec 8) (rest : List Input), s.inputs = .read off :: rest →
    ∃ t, step s = .next t ∧
      t = { s with inputs := rest, readData := t.readData, draws := t.draws } ∧
      (off.toNat / 4 = 0 → t.readData = 0x524F5437) ∧
      (off.toNat / 4 = 1 → t.readData.getLsbD 0 = s.diag ∧ t.readData.getLsbD 1 = s.ie ∧
        ∀ i, 2 ≤ i → t.readData.getLsbD i = false) ∧
      (off.toNat / 4 = 2 →
        t.readData.getLsbD 0 = s.init ∧ t.readData.getLsbD 1 = s.busy ∧ t.readData.getLsbD 2 = s.done ∧
        t.readData.getLsbD 3 = s.err ∧ t.readData.getLsbD 4 = s.ovr ∧ t.readData.getLsbD 5 = s.mode ∧
        t.readData.getLsbD 6 = s.cst ∧ t.readData.getLsbD 7 = s.bst ∧
        (∀ j < 8, t.readData.getLsbD (8 + j) = s.keymask.getLsbD j) ∧
        ∀ i, 16 ≤ i → t.readData.getLsbD i = false) ∧
      (off.toNat / 4 = 3 → t.readData.toNat = s.errcode.toNat) ∧
      (off.toNat / 4 = 4 → t.readData = 0) ∧
      (5 ≤ off.toNat / 4 → off.toNat / 4 ≤ 7 → t.readData = 0) ∧
      (∀ k < 4, off.toNat / 4 = 8 + k → t.readData = nth s.din k) ∧
      (∀ k < 4, off.toNat / 4 = 12 + k → s.busy = false → t.readData = nth s.dout k) ∧
      (16 ≤ off.toNat / 4 → t.readData = 0)

/-- The model's choice (log 3) for a read of `DOUT` while busy, which R72 leaves unspecified: the next free draw, whatever
its value. -/
def Obligations.BusyDoutReadIsFree : Prop :=
  ∀ (s : State) (off : BitVec 8) (rest : List Input),
    s.inputs = .read off :: rest → s.busy = true → 12 ≤ off.toNat / 4 → off.toNat / 4 ≤ 15 →
      step s = .next { s with inputs := rest, readData := Config.freeDout s.draws, draws := s.draws + 1 }

/-- An idle write to `CTRL` sets `DIAG` and `IE` from bits 0 and 1 and ignores the rest (R66). -/
def Obligations.WriteCtrlSetsDiagAndIe : Prop :=
  ∀ (s : State) (off : BitVec 8) (v : Word) (rest : List Input),
    s.inputs = .write off v :: rest → s.busy = false → off.toNat / 4 = 1 →
      step s = .next { s with inputs := rest, diag := v.getLsbD 0, ie := v.getLsbD 1 }

/-- An idle write to `STATUS` clears `DONE`, `ERR` and `OVR` where bits 2, 3 and 4 are 1, and nothing else (R67). -/
def Obligations.WriteStatusClearsFlags : Prop :=
  ∀ (s : State) (off : BitVec 8) (v : Word) (rest : List Input),
    s.inputs = .write off v :: rest → s.busy = false → off.toNat / 4 = 2 →
      step s = .next { s with
        inputs := rest
        done := if v.getLsbD 2 then false else s.done
        err := if v.getLsbD 3 then false else s.err
        ovr := if v.getLsbD 4 then false else s.ovr }

/-- An idle write to `CMD` latches the word, sets `BUSY`, clears `DONE`, and nothing else, whatever the word (R68). -/
def Obligations.WriteCmdAcceptsTheWord : Prop :=
  ∀ (s : State) (off : BitVec 8) (v : Word) (rest : List Input),
    s.inputs = .write off v :: rest → s.busy = false → off.toNat / 4 = 4 →
      step s = .next { s with inputs := rest, pending := v, busy := true, done := false }

/-- An idle write to `DIN[k]` writes that register alone (R69). -/
def Obligations.WriteDinWritesOneRegister : Prop :=
  ∀ (s : State) (off : BitVec 8) (v : Word) (rest : List Input) (k : Nat),
    s.inputs = .write off v :: rest → s.busy = false → k < 4 → off.toNat / 4 = 8 + k →
      ∃ t, step s = .next t ∧ nth t.din k = v ∧ (∀ j < 4, j ≠ k → nth t.din j = nth s.din j) ∧
        t = { s with inputs := rest, din := t.din }

/-- An idle write to `KEY[j]` writes that staging word and marks it in `KEYMASK`; `MK` and the tables stay (R70). -/
def Obligations.WriteKeyStagesOneWord : Prop :=
  ∀ (s : State) (off : BitVec 8) (v : Word) (rest : List Input) (j : Nat),
    s.inputs = .write off v :: rest → s.busy = false → j < 8 → off.toNat / 4 = 16 + j →
      ∃ t, step s = .next t ∧ nth t.key j = v ∧ (∀ i < 8, i ≠ j → nth t.key i = nth s.key i) ∧
        t.keymask.getLsbD j = true ∧ (∀ i < 8, i ≠ j → t.keymask.getLsbD i = s.keymask.getLsbD i) ∧
        t = { s with inputs := rest, key := t.key, keymask := t.keymask }

/-- An idle write to `ID`, `ERRCODE` or `DOUT[k]` changes nothing (R71); nor does one to a reserved offset (R63). -/
def Obligations.WriteElsewhereChangesNothing : Prop :=
  ∀ (s : State) (off : BitVec 8) (v : Word) (rest : List Input),
    s.inputs = .write off v :: rest → s.busy = false →
      (off.toNat / 4 = 0 ∨ off.toNat / 4 = 3 ∨ (5 ≤ off.toNat / 4 ∧ off.toNat / 4 ≤ 7) ∨
        (12 ≤ off.toNat / 4 ∧ off.toNat / 4 ≤ 15) ∨ 24 ≤ off.toNat / 4) →
      step s = .next { s with inputs := rest }

/-- Address bits 1:0 are ignored, in reads and writes, and an access at `BASE + off` reaches byte offset `off`, for every
`BASE` the platform may choose, a multiple of 256 (R60, R61). -/
def Obligations.AddressesSelectWholeRegisters : Prop :=
  (∀ (off off' : BitVec 8) (v : Word) (s : State), off.toNat / 4 = off'.toNat / 4 →
    hostRead off s = hostRead off' s ∧ hostWrite off v s = hostWrite off' v s) ∧
  (∀ off : BitVec 8, windowOffset (Config.base + off.toNat) = some off) ∧
  (∀ addr, addr < Config.base ∨ Config.base + 256 ≤ addr → windowOffset addr = none) ∧
  Config.base % 256 = 0

/-- A power-on reset gives every field of the engine its value of R50, whatever it was doing: a command in progress is
abandoned, and `irq` is 0 (R50, R340, R342). The fields R50 leaves unspecified are not named. -/
def Obligations.PowerOnResetRestoresResetValues : Prop :=
  ∀ (s : State) (rest : List Input), s.inputs = .powerOnReset :: rest →
    ∃ t, step s = .next t ∧
      (∀ k < 4, nth t.din k = 0 ∧ nth t.dout k = 0) ∧ t.diag = false ∧ t.ie = false ∧
      t.init = false ∧ t.busy = false ∧ t.done = false ∧ t.err = false ∧ t.ovr = false ∧ t.mode = false ∧
      t.cst = false ∧ t.bst = false ∧ t.keymask = 0 ∧ t.errcode = 0 ∧ (∀ j < 8, nth t.key j = 0) ∧
      (∀ j < 32, nth t.mkey j = 0) ∧ (∀ i < 16, nth t.creg i = 0 ∧ nth t.breg i = 0) ∧ irq t = false

/-! ### Completion and errors (60_exceptions) -/

/-- The checks of R308 in their order: the first that fails is the one reported, with no other effect; when none fails
the command succeeds. -/
def Obligations.ChecksAreMadeInOrder : Prop :=
  ∀ s : State, s.busy = true →
    (¬InOpcodeTable s.pending → engineTurn s = .next (failedWith 5 s)) ∧
    ∀ i, decode s.pending = some i →
      ((0x20 ≤ opcode i ∧ s.diag = false) → engineTurn s = .next (failedWith 7 s)) ∧
      (¬(0x20 ≤ opcode i ∧ s.diag = false) →
        ((opcode i ≠ 0x01 ∧ s.init = false) → engineTurn s = .next (failedWith 2 s)) ∧
        (¬(opcode i ≠ 0x01 ∧ s.init = false) →
          (badOperand i (nth s.din 0) = true → engineTurn s = .next (failedWith 6 s)) ∧
          (badOperand i (nth s.din 0) = false →
            ((opcode i = 0x01 ∧ s.keymask ≠ 0xFF) → engineTurn s = .next (failedWith 1 s)) ∧
            (¬(opcode i = 0x01 ∧ s.keymask ≠ 0xFF) → ∃ t, engineTurn s = .next t ∧ t.errcode = 0))))

/-- The operand ranges: each command of R95 reports `BadOperand` exactly on the condition of its row, and no other command
reports it. -/
def Obligations.OperandRangesAreChecked : Prop :=
  ∀ s : State, s.diag = true → s.init = true → ∀ sel n idx : Nat,
    (exec (.rdPos sel) s = .next (failedWith 6 s) ↔ 7 < sel) ∧
    (exec (.wrPos sel) s = .next (failedWith 6 s) ↔ 7 < sel ∨ 0xFFFF < (nth s.din 0).toNat) ∧
    (exec (.rdNotch sel n) s = .next (failedWith 6 s) ↔ 7 < sel ∨ 6 < n) ∧
    (exec (.wrNotch sel n) s = .next (failedWith 6 s) ↔ 7 < sel ∨ 6 < n ∨ 0xFFFF < (nth s.din 0).toNat) ∧
    (exec (.wrNcnt sel) s = .next (failedWith 6 s) ↔
      7 < sel ∨ (nth s.din 0).toNat < 1 ∨ 7 < (nth s.din 0).toNat) ∧
    (exec (.rdRfwd sel idx) s = .next (failedWith 6 s) ↔ 7 < sel) ∧
    (exec (.rdRinv sel idx) s = .next (failedWith 6 s) ↔ 7 < sel) ∧
    (exec (.rdSbox idx) s = .next (failedWith 6 s) ↔ 255 < idx) ∧
    (exec (.rdIsbox idx) s = .next (failedWith 6 s) ↔ 255 < idx) ∧
    (exec (.rdRkey sel) s = .next (failedWith 6 s) ↔ 14 < sel) ∧
    ∀ i t, opcode i ∉ [0x30, 0x31, 0x32, 0x33, 0x34, 0x38, 0x39, 0x3B, 0x3C, 0x3D] →
      exec i s = .next t → t.errcode ≠ 6

/-- A completion that reports a nonzero code changes `ERRCODE`, `ERR`, `DONE` and `BUSY` alone (R309). -/
def Obligations.ErrorsArePrecise : Prop :=
  ∀ s t : State, s.busy = true → engineTurn s = .next t → t.errcode ≠ 0 → t = failedWith t.errcode s

/-- Every completion sets `DONE`, clears `BUSY`, sets `ERR` when the code is nonzero and otherwise keeps it, and does not
write `OVR` (R313). -/
def Obligations.CompletionWritesTheStatus : Prop :=
  ∀ s t : State, s.busy = true → engineTurn s = .next t →
    t.done = true ∧ t.busy = false ∧ (t.errcode ≠ 0 → t.err = true) ∧ (t.errcode = 0 → t.err = s.err) ∧ t.ovr = s.ovr

/-- The interrupt is asserted after every completion while `IE = 1`, by setting `IE` while `DONE = 1`, and a write clears
it only by clearing `DONE`, accepting a command, or clearing `IE` (R320). -/
def Obligations.InterruptFollowsDoneAndIe : Prop :=
  (∀ s t : State, s.busy = true → engineTurn s = .next t → irq t = s.ie) ∧
  (∀ (s : State) (off : BitVec 8) (v : Word), s.busy = false → s.done = true → off.toNat / 4 = 1 →
    irq (hostWrite off v s) = v.getLsbD 1) ∧
  (∀ (s : State) (off : BitVec 8) (v : Word), irq s = true → irq (hostWrite off v s) = false →
    off.toNat / 4 = 4 ∨ (off.toNat / 4 = 2 ∧ v.getLsbD 2 = true) ∨ (off.toNat / 4 = 1 ∧ v.getLsbD 1 = false)) ∧
  ∀ (s : State) (off : BitVec 8), irq (hostRead off s) = irq s

/-! ### The context commands (45_context) -/

/-- `INIT` with all eight staging words: the key, every derived structure element by element, the cleared chaining state,
and that nothing else changes (R271, R123 to R127, R129 to R131). The plugboard is that of the parameter `PLUG_PAIR` the state
carries, at its empty value the default formula's (R7, R128; the form is the model's, log 6); the S-box is that of
the `SBOX_KEY_OFFSET` it carries (R7, R130; log 7). -/
def Obligations.InitBuildsTheContext : Prop :=
  ∀ s : State, s.keymask = 0xFF →
    ∃ t, exec .init s = .next t ∧
      (∀ j < 32, nth t.mkey j = byteOf (nth s.key (j / 4)) (j % 4)) ∧
      (∀ r < 8,
        nth t.rfwd r = shuffle 16 65536 (fun i => nth t.mkey ((r + i) % 32)) ∧
        nth t.rinv r = invertTable (nth t.rfwd r) ∧
        (nth t.pos r).toNat = (nth t.mkey r).toNat ∧
        (nth t.ncnt r).toNat = (nth t.mkey ((r + 1) % 32)).toNat % 7 + 1 ∧
        ∀ n < 7, (nth (nth t.notch r) n).toNat =
          if n < (nth t.ncnt r).toNat then (nth t.mkey ((r + n + 2) % 32)).toNat * 251 % 65536 else 0) ∧
      t.plug = ksPlug s.plugPairs t.mkey ∧ (s.plugPairs = [] → t.plug = ksPlugWith defaultPlugPair t.mkey) ∧
      t.sbox = shuffle 8 256 (fun i => nth t.mkey ((s.sboxKeyOffset + i) % 32)) ∧
      t.isbox = invertTable t.sbox ∧
      (∀ i < 16, nth t.creg i = 0 ∧ nth t.breg i = 0) ∧ (∀ j < 8, nth t.key j = 0) ∧
      t = { s with
        mkey := t.mkey, rfwd := t.rfwd, rinv := t.rinv, pos := t.pos, ncnt := t.ncnt, notch := t.notch
        plug := t.plug, sbox := t.sbox, isbox := t.isbox, creg := t.creg, breg := t.breg, key := t.key
        keymask := 0, init := true, mode := false, cst := false, bst := false
        errcode := 0, done := true, busy := false }

/-- `MSGRST` in an initialized context: positions back to the key's bytes, chaining cleared, streams idle, and nothing else
(R272). -/
def Obligations.MsgrstRewindsTheMessage : Prop :=
  ∀ s : State, s.init = true →
    ∃ t, exec .msgrst s = .next t ∧
      (∀ r < 8, (nth t.pos r).toNat = (nth s.mkey r).toNat) ∧
      (∀ i < 16, nth t.creg i = 0 ∧ nth t.breg i = 0) ∧
      t = { s with
        pos := t.pos, creg := t.creg, breg := t.breg, cst := false, bst := false
        errcode := 0, done := true, busy := false }

/-- `TEARDOWN` in an initialized context: key, staging, operands, results and chaining zeroed, flags cleared. The rotor
state and the tables take any values (R273; that the values are the next free draw is the model's choice, log 4), and
nothing else changes. -/
def Obligations.TeardownErasesTheContext : Prop :=
  ∀ s : State, s.init = true →
    ∃ t, exec .teardown s = .next t ∧
      (∀ j < 32, nth t.mkey j = 0) ∧ (∀ i < 16, nth t.creg i = 0 ∧ nth t.breg i = 0) ∧
      (∀ j < 8, nth t.key j = 0) ∧ (∀ k < 4, nth t.din k = 0 ∧ nth t.dout k = 0) ∧
      t = { s with
        mkey := t.mkey, creg := t.creg, breg := t.breg, key := t.key, din := t.din, dout := t.dout
        keymask := 0, init := false, mode := false, cst := false, bst := false
        pos := t.pos, ncnt := t.ncnt, notch := t.notch, rfwd := t.rfwd, rinv := t.rinv, plug := t.plug
        sbox := t.sbox, isbox := t.isbox, draws := t.draws
        errcode := 0, done := true, busy := false }

/-- The lifecycle: `STATUS.INIT` rises only by a completed `INIT` with every staging word written, and falls only by a
completed `TEARDOWN` or by power-on reset (R26, R270). -/
def Obligations.OnlyInitAndTeardownChangeTheLifecycle : Prop :=
  ∀ s t : State, step s = .next t →
    (s.init = false → t.init = true → s.busy = true ∧ decode s.pending = some .init ∧ s.keymask = 0xFF) ∧
    (s.init = true → t.init = false →
      (s.busy = true ∧ decode s.pending = some .teardown) ∨ s.inputs.head? = some .powerOnReset)

/-! ### The unit commands (44_chaining) -/

/-- `CENC` in an initialized context: the output is the rotor-stage value XOR the low word of `CREG`, with the backward
pass at the stepped positions; `CREG[0..3]` take the output's bytes; nothing else changes (R241, R243). -/
def Obligations.CencEncryptsOneUnit : Prop :=
  ∀ s : State, s.init = true →
    ∃ t, exec .cenc s = .next t ∧
      t.pos = rotorStep s.ncnt s.notch s.pos ∧
      nth t.dout 0 =
        rotorBackward s.rinv t.pos (rotorForward s.rfwd s.pos (plugApply s.plug (nth s.din 0))) ^^^ cregWord s.creg ∧
      (∀ k < 4, 0 < k → nth t.dout k = 0) ∧
      (∀ k < 4, nth t.creg k = byteOf (nth t.dout 0) k) ∧
      (∀ i < 16, 4 ≤ i → nth t.creg i = nth s.creg i) ∧
      t = { s with
        dout := t.dout, pos := t.pos, creg := t.creg, mode := false, cst := true
        errcode := 0, done := true, busy := false }

/-- `CDEC` in an initialized context: the input XOR the low word of `CREG` goes backward at the old positions and forward
at the stepped ones, then through the plugboard; `CREG[0..3]` take the input's bytes; nothing else changes (R242). -/
def Obligations.CdecDecryptsOneUnit : Prop :=
  ∀ s : State, s.init = true →
    ∃ t, exec .cdec s = .next t ∧
      t.pos = rotorStep s.ncnt s.notch s.pos ∧
      nth t.dout 0 =
        plugApply s.plug (rotorForward s.rfwd t.pos (rotorBackward s.rinv s.pos (nth s.din 0 ^^^ cregWord s.creg))) ∧
      (∀ k < 4, 0 < k → nth t.dout k = 0) ∧
      (∀ k < 4, nth t.creg k = byteOf (nth s.din 0) k) ∧
      (∀ i < 16, 4 ≤ i → nth t.creg i = nth s.creg i) ∧
      t = { s with
        dout := t.dout, pos := t.pos, creg := t.creg, mode := true, cst := true
        errcode := 0, done := true, busy := false }

/-- `BENC` in an initialized context: `BREG` and the output block are the forward transform of the operand XOR the old
`BREG`; nothing else changes (R245, R246). -/
def Obligations.BencEncryptsOneBlock : Prop :=
  ∀ s : State, s.init = true →
    ∃ t, exec .benc s = .next t ∧
      (∀ w : Block, (∀ i < 16, nth w i = byteOf (nth s.din (i / 4)) (i % 4) ^^^ nth s.breg i) →
        t.breg = blockForward s.sbox s.mkey w) ∧
      (∀ i < 16, byteOf (nth t.dout (i / 4)) (i % 4) = nth t.breg i) ∧
      t = { s with
        dout := t.dout, breg := t.breg, mode := false, bst := true
        errcode := 0, done := true, busy := false }

/-- `BDEC` in an initialized context: the output block is the inverse transform of the operand XOR the old `BREG`, and
`BREG` takes the operand; nothing else changes (R245, R247). -/
def Obligations.BdecDecryptsOneBlock : Prop :=
  ∀ s : State, s.init = true →
    ∃ t, exec .bdec s = .next t ∧
      (∀ i < 16, nth t.breg i = byteOf (nth s.din (i / 4)) (i % 4)) ∧
      (∀ i < 16, byteOf (nth t.dout (i / 4)) (i % 4) =
        nth (blockInverse s.isbox s.mkey t.breg) i ^^^ nth s.breg i) ∧
      t = { s with
        dout := t.dout, breg := t.breg, mode := true, bst := true
        errcode := 0, done := true, busy := false }

/-- Both directions feed back the ciphertext unit: an encrypting and a decrypting engine that agree on `CREG` and the rotor
state, the second given the first's output, agree on them after the unit (R243 items 2 and 3). -/
def Obligations.CharacterSidesStayInStep : Prop :=
  ∀ s t s' t' : State, s.init = true → t.init = true →
    s.creg = t.creg → s.pos = t.pos → s.ncnt = t.ncnt → s.notch = t.notch →
    exec .cenc s = .next s' → nth t.din 0 = nth s'.dout 0 → exec .cdec t = .next t' →
      s'.creg = t'.creg ∧ s'.pos = t'.pos ∧ s'.ncnt = t'.ncnt ∧ s'.notch = t'.notch

/-- What `CDEC` makes of a `CENC` output, in terms of the passes at the old and the stepped positions: the unit decrypts
correctly exactly when they compose to the identity on it (R244). -/
def Obligations.UnitDecryptsExactlyWhenPassesCompose : Prop :=
  ∀ s t s' t' : State, s.init = true → t.init = true →
    s.creg = t.creg → s.pos = t.pos → s.ncnt = t.ncnt → s.notch = t.notch →
    s.rfwd = t.rfwd → s.rinv = t.rinv → s.plug = t.plug →
    exec .cenc s = .next s' → nth t.din 0 = nth s'.dout 0 → exec .cdec t = .next t' →
      (nth t'.dout 0 = nth s.din 0 ↔
        plugApply s.plug (rotorForward s.rfwd s'.pos (rotorBackward s.rinv s.pos
          (rotorBackward s.rinv s'.pos (rotorForward s.rfwd s.pos (plugApply s.plug (nth s.din 0)))))) = nth s.din 0)

/-- Every plaintext unit outside the BMP decrypts correctly, whatever the tables (R244 item 2). -/
def Obligations.UnitsOutsideBmpRoundTrip : Prop :=
  ∀ s t s' t' : State, s.init = true → t.init = true → s.creg = t.creg → 65536 ≤ (nth s.din 0).toNat →
    exec .cenc s = .next s' → nth t.din 0 = nth s'.dout 0 → exec .cdec t = .next t' →
      nth t'.dout 0 = nth s.din 0

/-- With the all-zero key every unit decrypts correctly, at any positions, under the default `PLUG_PAIR` (R136, R244 item 3;
an engine built with the default carries the empty value of the parameter, log 6). -/
def Obligations.ZeroKeyUnitsRoundTrip : Prop :=
  ∀ s t s' t' : State, s.init = true → t.init = true → TablesFollowKey s → TablesFollowKey t →
    s.plugPairs = [] → t.plugPairs = [] →
    s.mkey = Vector.replicate 32 0 → t.mkey = Vector.replicate 32 0 → s.creg = t.creg →
    exec .cenc s = .next s' → nth t.din 0 = nth s'.dout 0 → exec .cdec t = .next t' →
      nth t'.dout 0 = nth s.din 0

/-- A block decrypts correctly exactly when every byte of the operand XOR `BREG` is `ISBOX[0]`, and either way both sides
hold the ciphertext block in `BREG` (R248 items 1 and 2). -/
def Obligations.BlockDecryptsExactlyAtIsboxZero : Prop :=
  ∀ s t s' t' : State, s.init = true → t.init = true → SboxesInverse s.sbox s.isbox →
    s.breg = t.breg → s.isbox = t.isbox → s.mkey = t.mkey →
    exec .benc s = .next s' → t.din = s'.dout → exec .bdec t = .next t' →
      s'.breg = t'.breg ∧
      (t'.dout = s.din ↔
        ∀ i < 16, byteOf (nth s.din (i / 4)) (i % 4) ^^^ nth s.breg i = ByteTable.at s.isbox 0)

/-! ### The diagnostic commands (41, 42, 43, 44) -/

/-- `PB_APPLY` and `RD_PLUG`, enabled and initialized: the table's entry, or the code point itself outside the BMP; nothing
but `DOUT` and the status changes (R190, R192, R193). -/
def Obligations.PlugboardCommandsReadTheTable : Prop :=
  ∀ s : State, s.diag = true → s.init = true →
    (exec .pbApply s = .next (succeeded { s with
      dout := #v[if (nth s.din 0).toNat < 65536 then (nth s.plug (nth s.din 0).toNat).setWidth 32 else nth s.din 0,
        0, 0, 0] })) ∧
    ∀ idx < 65536, exec (.rdPlug idx) s = .next (succeeded { s with dout := #v[(nth s.plug idx).setWidth 32, 0, 0, 0] })

/-- `ROT_FWD` and `ROT_BWD`, enabled and initialized: rotors 0 up to 7, or 7 down to 0, each entered and left at its
position modulo 65536; a code point outside the BMP is returned; nothing but `DOUT` and the status changes (R150, R151,
R155, R156). -/
def Obligations.RotorPassCommandsRunAllRotors : Prop :=
  ∀ s : State, s.diag = true → s.init = true →
    ∃ c d : Word,
      exec .rotFwd s = .next (succeeded { s with dout := #v[c, 0, 0, 0] }) ∧
      exec .rotBwd s = .next (succeeded { s with dout := #v[d, 0, 0, 0] }) ∧
      (65536 ≤ (nth s.din 0).toNat → c = nth s.din 0 ∧ d = nth s.din 0) ∧
      ((nth s.din 0).toNat < 65536 →
        (∀ u : Nat → Nat, u 0 = (nth s.din 0).toNat →
          (∀ r < 8, u (r + 1) =
            ((nth (nth s.rfwd r) ((u r + (nth s.pos r).toNat) % 65536)).toNat + 65536 - (nth s.pos r).toNat) % 65536) →
          c.toNat = u 8) ∧
        (∀ u : Nat → Nat, u 8 = (nth s.din 0).toNat →
          (∀ r < 8, u r =
            ((nth (nth s.rinv r) ((u (r + 1) + (nth s.pos r).toNat) % 65536)).toNat + 65536 - (nth s.pos r).toNat)
              % 65536) →
          d.toNat = u 0))

/-- `ROT_STEP`, enabled and initialized: rotor 0 advances by one modulo 65536, and a rotor above it advances by one exactly
when every rotor below it stands on a notch of its own after the step; nothing but `POS` and the status changes (R152,
R154 items 1, 2 and 4, R157). -/
def Obligations.RotStepCascades : Prop :=
  ∀ s : State, s.diag = true → s.init = true →
    ∃ t, exec .rotStep s = .next t ∧ t = succeeded { s with pos := t.pos } ∧
      nth t.pos 0 = nth s.pos 0 + 1 ∧
      ∀ r < 8, 1 ≤ r →
        ((∀ q < r, StandsOnNotch s t.pos q) → nth t.pos r = nth s.pos r + 1) ∧
        (¬(∀ q < r, StandsOnNotch s t.pos q) → nth t.pos r = nth s.pos r)

/-- `RD_POS` and `RD_NOTCH`, enabled, initialized and in range: the position, or the slot and the count; nothing but `DOUT`
and the status changes (R158, R160). -/
def Obligations.RotorReadbackReturnsTheState : Prop :=
  ∀ s : State, s.diag = true → s.init = true → ∀ sel < 8,
    exec (.rdPos sel) s = .next (succeeded { s with dout := #v[(nth s.pos sel).setWidth 32, 0, 0, 0] }) ∧
    ∀ n < 7, exec (.rdNotch sel n) s = .next (succeeded { s with
      dout := #v[(nth (nth s.notch sel) n).setWidth 32, (nth s.ncnt sel).setWidth 32, 0, 0] })

/-- `WR_POS`, `WR_NOTCH` and `WR_NCNT`, enabled, initialized and in range, write the one entry and nothing else but the
status: no cascade (R154 item 3, R159, R161, R162). -/
def Obligations.RotorWritesWriteOneEntry : Prop :=
  ∀ s : State, s.diag = true → s.init = true → ∀ sel < 8,
    ((nth s.din 0).toNat ≤ 0xFFFF →
      (∃ t, exec (.wrPos sel) s = .next t ∧ t = succeeded { s with pos := t.pos } ∧
        (nth t.pos sel).toNat = (nth s.din 0).toNat ∧ ∀ r < 8, r ≠ sel → nth t.pos r = nth s.pos r) ∧
      ∀ n < 7, ∃ t, exec (.wrNotch sel n) s = .next t ∧ t = succeeded { s with notch := t.notch } ∧
        (nth (nth t.notch sel) n).toNat = (nth s.din 0).toNat ∧
        ∀ r < 8, ∀ m < 7, (r ≠ sel ∨ m ≠ n) → nth (nth t.notch r) m = nth (nth s.notch r) m) ∧
    (1 ≤ (nth s.din 0).toNat → (nth s.din 0).toNat ≤ 7 →
      ∃ t, exec (.wrNcnt sel) s = .next t ∧ t = succeeded { s with ncnt := t.ncnt } ∧
        (nth t.ncnt sel).toNat = (nth s.din 0).toNat ∧ ∀ r < 8, r ≠ sel → nth t.ncnt r = nth s.ncnt r)

/-- The table reads, enabled, initialized and in range, return the entry; nothing but `DOUT` and the status changes (R163,
R164, R223, R224). -/
def Obligations.TableReadsReturnTheEntry : Prop :=
  ∀ s : State, s.diag = true → s.init = true →
    (∀ sel < 8, ∀ idx < 65536,
      exec (.rdRfwd sel idx) s = .next (succeeded { s with dout := #v[(nth (nth s.rfwd sel) idx).setWidth 32, 0, 0, 0] }) ∧
      exec (.rdRinv sel idx) s =
        .next (succeeded { s with dout := #v[(nth (nth s.rinv sel) idx).setWidth 32, 0, 0, 0] })) ∧
    ∀ idx < 256,
      exec (.rdSbox idx) s = .next (succeeded { s with dout := #v[(nth s.sbox idx).setWidth 32, 0, 0, 0] }) ∧
      exec (.rdIsbox idx) s = .next (succeeded { s with dout := #v[(nth s.isbox idx).setWidth 32, 0, 0, 0] })

/-- The seven block-step commands, enabled and initialized, register by register: row `q` is `DIN[q]`, ShiftRows rotates it
right by `8q` bits as a little-endian word, MixColumns XORs it with itself rotated by one byte; nothing but `DOUT` and the
status changes (R200 to R208, R216 to R222). -/
def Obligations.BlockStepCommandsActOnRows : Prop :=
  ∀ s : State, s.diag = true → s.init = true →
    exec .btSub s = .next (succeeded { s with dout := s.din.map (mapBytes (ByteTable.at s.sbox)) }) ∧
    exec .btIsub s = .next (succeeded { s with dout := s.din.map (mapBytes (ByteTable.at s.isbox)) }) ∧
    exec .btShr s = .next (succeeded { s with
      dout := Vector.ofFn fun q : Fin 4 => (s.din[q]).rotateRight (8 * q.val) }) ∧
    exec .btIshr s = .next (succeeded { s with
      dout := Vector.ofFn fun q : Fin 4 => (s.din[q]).rotateLeft (8 * q.val) }) ∧
    exec .btMix s = .next (succeeded { s with dout := s.din.map fun w => w ^^^ w.rotateRight 8 }) ∧
    exec .btImix s = .next (succeeded { s with dout := s.din.map fun w => w ^^^ w.rotateLeft 8 }) ∧
    exec .btArk s = .next (succeeded { s with
      dout := Vector.ofFn fun q : Fin 4 => s.din[q] ^^^ keyWord s.mkey q.val })

/-- `BT_FWD` and `BT_INV`, enabled and initialized: four independent 32-bit transforms, one per register, in the stated step
order; nothing but `DOUT` and the status changes (R209, R210, R213, R214, R215). -/
def Obligations.BlockTransformCommandsActOnRows : Prop :=
  ∀ s : State, s.diag = true → s.init = true →
    exec .btFwd s = .next (succeeded { s with
      dout := Vector.ofFn fun q : Fin 4 =>
        let y := (mapBytes (ByteTable.at s.sbox) s.din[q]).rotateRight (8 * q.val)
        y ^^^ y.rotateRight 8 ^^^ keyWord s.mkey q.val }) ∧
    exec .btInv s = .next (succeeded { s with
      dout := Vector.ofFn fun q : Fin 4 =>
        let y := s.din[q] ^^^ keyWord s.mkey q.val
        mapBytes (ByteTable.at s.isbox) ((y ^^^ y.rotateLeft 8).rotateLeft (8 * q.val)) })

/-- `RD_RKEY`, `RD_CREG` and `RD_BREG`, enabled, initialized and in range: byte `i` of the four result words; nothing but
`DOUT` and the status changes (R132, R225, R249, R250). -/
def Obligations.KeyAndChainingReadback : Prop :=
  ∀ s : State, s.diag = true → s.init = true →
    (∀ round < 15, ∃ t, exec (.rdRkey round) s = .next t ∧ t = succeeded { s with dout := t.dout } ∧
      ∀ i < 16, byteOf (nth t.dout (i / 4)) (i % 4) = nth s.mkey ((i + round * 4) % 32)) ∧
    (∃ t, exec .rdCreg s = .next t ∧ t = succeeded { s with dout := t.dout } ∧
      ∀ i < 16, byteOf (nth t.dout (i / 4)) (i % 4) = nth s.creg i) ∧
    ∃ t, exec .rdBreg s = .next t ∧ t = succeeded { s with dout := t.dout } ∧
      ∀ i < 16, byteOf (nth t.dout (i / 4)) (i % 4) = nth s.breg i

/-! ### Algebra of the units (40, 41, 43) -/

/-- The partner needs no multiplier, and lies in `0..i` (R122). -/
def Obligations.ShufflePartnerNeedsNoMultiplier : Prop :=
  ∀ (kb : Nat → Byte) (i : Nat),
    partner kb i = (i + 1 - (kb i).toNat % (i + 1)) % (i + 1) ∧
    (kb i = 0 → partner kb i = 0) ∧ ((kb i).toNat % (i + 1) = 1 → partner kb i = i) ∧ partner kb i ≤ i

/-- Every derived table is a permutation, the plugboard for every `PLUG_PAIR` and the S-box for every `SBOX_KEY_OFFSET`, and
the inverse tables are permutations and invert (R127, R131, R133). -/
def Obligations.DerivedTablesAreBijective : Prop :=
  ∀ k : Key,
    (∀ r < 8, TablePermutes (ksRfwd k r) ∧ TablePermutes (ksRinv k r)) ∧
    (∀ pair : Key → Nat → Half × Half,
      TablePermutes (ksPlugWith pair k) ∧ TablePermutes (invertTable (ksPlugWith pair k))) ∧
    (∀ offset : Nat,
      Function.Bijective (ByteTable.at (ksSbox offset k)) ∧ Function.Bijective (ByteTable.at (ksIsbox offset k)) ∧
      SboxesInverse (ksSbox offset k) (ksIsbox offset k)) ∧
    BanksInverse (ksForwardBank k) (ksInverseBank k)

/-- The ranges of the key schedule's values, and that no key gives a notch at 5 (R135). -/
def Obligations.KeyScheduleValueRanges : Prop :=
  ∀ k : Key,
    (∀ r < 8, (ksPos k r).toNat ≤ 255) ∧
    (∀ r < 8, ∀ n < (ksNcnt k r).toNat,
      (∃ b ≤ 255, (ksNotch k r n).toNat = 251 * b) ∧ (ksNotch k r n).toNat ≤ 64005 ∧ (ksNotch k r n).toNat ≠ 5) ∧
    50 ≤ plugSwaps k ∧ plugSwaps k ≤ 149 ∧
    ∀ round i : Nat, roundKeyByte k (round + 8) i = roundKeyByte k round i

/-- The key schedule of the all-zero key: the plugboard under the default `PLUG_PAIR`, which `defaultPlugPair` is; the S-box
for every `SBOX_KEY_OFFSET` (R136; the parameters are log 6 and 7). -/
def Obligations.ZeroKeySchedule : Prop :=
  ∀ k : Key, k = Vector.replicate 32 0 →
    (∀ r i : Nat, partner (fun j => keyByte k (r + j)) i = 0) ∧
    (∀ r < 8, ∀ x : Half, Table.at (ksRfwd k r) x = x + 1 ∧ Table.at (ksRinv k r) x = x + 65535) ∧
    (∀ (offset : Nat) (x : Byte), ByteTable.at (ksSbox offset k) x = x + 1 ∧
      ByteTable.at (ksIsbox offset k) x = x + 255) ∧
    (∀ r < 8, ksPos k r = 0 ∧ ksNcnt k r = 1 ∧ ∀ n < 7, ksNotch k r n = 0) ∧
    (∀ round < 15, ∀ i < 16, roundKeyByte k round i = 0) ∧
    (∀ i : Nat, defaultPlugPair k i = (0, 0)) ∧ ∀ x : Half, Table.at (ksPlugWith defaultPlugPair k) x = x

/-- Backward undoes forward, and forward backward, at the same positions, for every code point (R153). -/
def Obligations.BackwardUndoesForward : Prop :=
  ∀ (rfwd rinv : Bank) (pos : Positions) (v : Word), BanksInverse rfwd rinv →
    rotorBackward rinv pos (rotorForward rfwd pos v) = v ∧ rotorForward rfwd pos (rotorBackward rinv pos v) = v

/-- The step identities: three steps are undone, MixColumns is singular, and the stated InvMixColumns does not invert it
(R211 items 1 to 5 without the counts). -/
def Obligations.BlockStepIdentities : Prop :=
  (∀ (sbox isbox : ByteTable) (b : Block), SboxesInverse sbox isbox → invSubBytes isbox (subBytes sbox b) = b) ∧
  (∀ b : Block, invShiftRows (shiftRows b) = b) ∧
  (∀ (k : Key) (b : Block), addRoundKey k (addRoundKey k b) = b) ∧
  (∀ (b : Block) (g : Nat), g < 4 →
    rowByte (mixColumns b) g 0 ^^^ rowByte (mixColumns b) g 1 ^^^ rowByte (mixColumns b) g 2 ^^^
      rowByte (mixColumns b) g 3 = 0) ∧
  (¬Function.Injective mixColumns) ∧
  ∀ (b : Block) (g : Nat), g < 4 →
    rowByte (invMixColumns (mixColumns b)) g 0 = rowByte b g 1 ^^^ rowByte b g 3 ∧
    rowByte (invMixColumns (mixColumns b)) g 1 = rowByte b g 0 ^^^ rowByte b g 2 ∧
    rowByte (invMixColumns (mixColumns b)) g 2 = rowByte b g 1 ^^^ rowByte b g 3 ∧
    rowByte (invMixColumns (mixColumns b)) g 3 = rowByte b g 0 ^^^ rowByte b g 2

/-- The block transform's round trip restores exactly one block, sixteen bytes of `ISBOX[0]` (R212). -/
def Obligations.BlockRoundTripRestoresOneBlock : Prop :=
  ∀ (sbox isbox : ByteTable) (k : Key), SboxesInverse sbox isbox →
    ∀ b : Block, blockInverse isbox k (blockForward sbox k b) = b ↔ b = Vector.replicate 16 (ByteTable.at isbox 0)

/-! ### Whole-machine rules -/

/-- Only `INIT` and `TEARDOWN` write the key, the tables and the initialized flag, only they and the notch writes change the
notch state, and the position is written by them, `MSGRST`, the character units, `ROT_STEP` and `WR_POS` alone; commands
without a result keep `DOUT` (R37 to R43, R79, R98). -/
def Obligations.CommandsWriteOnlyTheirState : Prop :=
  ∀ (i : Instr) (s t : State), exec i s = .next t →
    (opcode i ∉ [0x01, 0x03] →
      t.mkey = s.mkey ∧ t.rfwd = s.rfwd ∧ t.rinv = s.rinv ∧ t.plug = s.plug ∧ t.sbox = s.sbox ∧ t.isbox = s.isbox ∧
      t.key = s.key ∧ t.keymask = s.keymask ∧ t.din = s.din ∧ t.init = s.init) ∧
    (opcode i ∉ [0x01, 0x03, 0x34] → t.ncnt = s.ncnt) ∧
    (opcode i ∉ [0x01, 0x03, 0x33] → t.notch = s.notch) ∧
    (opcode i ∉ [0x01, 0x02, 0x03, 0x10, 0x11, 0x23, 0x31] → t.pos = s.pos) ∧
    (opcode i ∉ [0x01, 0x02, 0x03, 0x10, 0x11] → t.creg = s.creg ∧ t.cst = s.cst) ∧
    (opcode i ∉ [0x01, 0x02, 0x03, 0x18, 0x19] → t.breg = s.breg ∧ t.bst = s.bst) ∧
    (opcode i ∉ [0x01, 0x03, 0x10, 0x11, 0x18, 0x19] → t.mode = s.mode) ∧
    (opcode i ∈ [0x01, 0x02, 0x23, 0x31, 0x33, 0x34] → t.dout = s.dout) ∧
    t.diag = s.diag ∧ t.ie = s.ie ∧ t.ovr = s.ovr ∧ t.pending = s.pending ∧ t.inputs = s.inputs ∧
    t.plugPairs = s.plugPairs ∧ t.sboxKeyOffset = s.sboxKeyOffset

/-- The invariant holds at power-on reset (R49, R50). That `NCNT` is legal there is the model's choice of value (log 5) and
is no part of it: the clause binds initialized contexts alone. -/
def Obligations.ResetStateSatisfiesInvariant : Prop :=
  EngineInvariant State.reset

/-- Every step keeps the invariant: legal codes, `DONE` clear while busy, `CREG[4..15]` zero, unmarked staging words zero,
and in an initialized context tables that follow the key and legal notch counts, in an uninitialized one no secret left
(R33, R45, R49, R82, R273, R307; the plugboard and the S-box at the `PLUG_PAIR` and the
`SBOX_KEY_OFFSET` the state carries, log 6, 7). -/
def Obligations.EveryStepKeepsInvariant : Prop :=
  ∀ s t : State, EngineInvariant s → step s = .next t → EngineInvariant t

/-- Two states that differ only in what an uninitialized engine holds in its tables and rotor state, or in `PENDING` while
idle, step to states that differ only so, with the same word read: the hidden contents can never be observed (R47, R51). -/
def Obligations.HiddenContentsAreUnobservable : Prop :=
  ∀ s t : State, visible s = visible t →
    ∃ s' t', step s = .next s' ∧ step t = .next t' ∧ visible s' = visible t' ∧ s'.readData = t'.readData ∧ irq s' = irq t'

/-- `PLUG_PAIR` and `SBOX_KEY_OFFSET` are open: whatever function and number they are, an engine can be built with them,
`INIT` of every key then makes that function's plugboard and that offset's S-box with its inverse, and no step changes what
the engine was built with (R7, R128 to R131; the form of the parameters is the model's, log 6, 7). -/
def Obligations.BuildParametersAreOpen : Prop :=
  ∀ (f : Key → Nat → Half × Half) (offset : Nat), ∃ pairs : PlugParameter,
    (∀ s : State, s.plugPairs = pairs → s.sboxKeyOffset = offset → s.keymask = 0xFF →
      ∃ t, exec .init s = .next t ∧ t.plug = ksPlugWith f t.mkey ∧
        t.sbox = shuffle 8 256 (fun i => nth t.mkey ((offset + i) % 32)) ∧ t.isbox = invertTable t.sbox) ∧
    ∀ s t : State, s.plugPairs = pairs → s.sboxKeyOffset = offset → step s = .next t →
      t.plugPairs = pairs ∧ t.sboxKeyOffset = offset
end

