-- ==== Sys2Proof/Laws/Arrays.lean ====
section
/-! SUPPORT. The laws of array access, table access and the byte lanes (00_scope R12, R13; 20_memory R73, R74). -/

namespace Sys2Proof.Laws

open Sys2Proof.Machine

variable {α : Type} {n : Nat}

/-! ### Arrays -/

theorem nth_of_lt [NeZero n] (v : Vector α n) {i : Nat} (h : i < n) : nth v i = v[i] := by
  simp [nth, Nat.mod_eq_of_lt h]

@[simp] theorem nth_val [NeZero n] (v : Vector α n) (i : Fin n) : nth v i.val = v[i.val] := nth_of_lt v i.isLt

@[simp] theorem nth_mod [NeZero n] (v : Vector α n) (i : Nat) : nth v (i % n) = nth v i := by simp [nth]

theorem nth_ofFn [NeZero n] (f : Fin n → α) {i : Nat} (h : i < n) : nth (Vector.ofFn f) i = f ⟨i, h⟩ := by
  simp [nth_of_lt _ h]

@[simp] theorem nth_replicate [NeZero n] (a : α) (i : Nat) : nth (Vector.replicate n a) i = a := by
  simp [nth]

theorem nth_upd [NeZero n] (v : Vector α n) (a : α) {i j : Nat} (hi : i < n) (hj : j < n) :
    nth (upd v i a) j = if j = i then a else nth v j := by
  rw [nth_of_lt _ hj, nth_of_lt _ hj]
  simp only [upd, Nat.mod_eq_of_lt hi, Vector.getElem_set, eq_comm]

theorem nth_upd_same [NeZero n] (v : Vector α n) (a : α) {i : Nat} (hi : i < n) : nth (upd v i a) i = a := by
  simp [nth_upd v a hi hi]

theorem nth_upd_ne [NeZero n] (v : Vector α n) (a : α) {i j : Nat} (hi : i < n) (hj : j < n) (h : j ≠ i) :
    nth (upd v i a) j = nth v j := by
  simp [nth_upd v a hi hj, h]

/-- Two arrays with equal entries are equal. -/
theorem nth_ext [NeZero n] {v w : Vector α n} (h : ∀ i < n, nth v i = nth w i) : v = w := by
  ext i hi
  simpa [nth_of_lt _ hi] using h i hi

theorem tableAt_eq_nth (t : Table) (x : Half) : Table.at t x = nth t x.toNat := by
  simp only [Table.at]
  exact (nth_of_lt t x.isLt).symm

theorem byteTableAt_eq_nth (t : ByteTable) (x : Byte) : ByteTable.at t x = nth t x.toNat := by
  simp only [ByteTable.at]
  exact (nth_of_lt t x.isLt).symm

/-- The exchange of two entries, entry by entry (R121, R129). -/
theorem nth_swapEntries [NeZero n] (t : Vector α n) {i j k : Nat} (hi : i < n) (hj : j < n) (hk : k < n) :
    nth (swapEntries t i j) k = if k = i then nth t j else if k = j then nth t i else nth t k := by
  have h : i < n ∧ j < n := ⟨hi, hj⟩
  simp only [nth_of_lt _ hk, nth_of_lt _ hi, nth_of_lt _ hj, swapEntries, dif_pos h, Vector.getElem_swap]

theorem nth_identityTable {w : Nat} [NeZero n] {i : Nat} (h : i < n) :
    nth (identityTable w n) i = BitVec.ofNat w i := by
  simp only [identityTable]
  rw [nth_ofFn _ h]

/-! ### Byte lanes -/

theorem byteOf_word4_zero (b0 b1 b2 b3 : Byte) : byteOf (word4 b0 b1 b2 b3) 0 = b0 := by
  ext i hi
  simp only [byteOf, word4, BitVec.getElem_extractLsb', BitVec.getLsbD_append]
  simp [show i < 8 from hi]

theorem byteOf_word4_one (b0 b1 b2 b3 : Byte) : byteOf (word4 b0 b1 b2 b3) 1 = b1 := by
  ext i hi
  simp only [byteOf, word4, BitVec.getElem_extractLsb', BitVec.getLsbD_append]
  simp [show i < 8 from hi]

theorem byteOf_word4_two (b0 b1 b2 b3 : Byte) : byteOf (word4 b0 b1 b2 b3) 2 = b2 := by
  ext i hi
  simp only [byteOf, word4, BitVec.getElem_extractLsb', BitVec.getLsbD_append]
  simp [show i < 8 from hi, show ¬ (16 + i < 8) by omega, show ¬ (16 + i - 8 < 8) by omega,
    show 16 + i - 8 - 8 = i by omega]

theorem byteOf_word4_three (b0 b1 b2 b3 : Byte) : byteOf (word4 b0 b1 b2 b3) 3 = b3 := by
  ext i hi
  simp only [byteOf, word4, BitVec.getElem_extractLsb', BitVec.getLsbD_append]
  simp [show ¬ (24 + i < 8) by omega, show ¬ (24 + i - 8 < 8) by omega,
    show ¬ (24 + i - 8 - 8 < 8) by omega, show 24 + i - 8 - 8 - 8 = i by omega, BitVec.getElem_eq_testBit_toNat,
    BitVec.getLsbD]

/-- `word4` inverts `bytes4` (R13). -/
theorem word4_byteOf (w : Word) : word4 (byteOf w 0) (byteOf w 1) (byteOf w 2) (byteOf w 3) = w := by
  refine BitVec.eq_of_getLsbD_eq fun i hi => ?_
  simp only [byteOf, word4, BitVec.getLsbD_append, BitVec.getLsbD_extractLsb']
  by_cases h0 : i < 8
  · simp [h0]
  by_cases h1 : i < 16
  · simp [h0, show i - 8 < 8 by omega, show 8 + (i - 8) = i by omega]
  by_cases h2 : i < 24
  · simp [h0, show ¬ (i - 8 < 8) by omega, show i - 8 - 8 < 8 by omega, show 16 + (i - 8 - 8) = i by omega]
  · simp [h0, show ¬ (i - 8 < 8) by omega, show ¬ (i - 8 - 8 < 8) by omega, show i - 8 - 8 - 8 < 8 by omega,
      show 24 + (i - 8 - 8 - 8) = i by omega]

theorem byteOf_word4 (b0 b1 b2 b3 : Byte) {k : Nat} (h : k < 4) :
    byteOf (word4 b0 b1 b2 b3) k = #v[b0, b1, b2, b3][k] := by
  match k, h with
  | 0, _ => exact byteOf_word4_zero ..
  | 1, _ => exact byteOf_word4_one ..
  | 2, _ => exact byteOf_word4_two ..
  | 3, _ => exact byteOf_word4_three ..

/-- Two words with equal bytes are equal (R13). -/
theorem word_ext {v w : Word} (h : ∀ k < 4, byteOf v k = byteOf w k) : v = w := by
  rw [← word4_byteOf v, ← word4_byteOf w, h 0 (by omega), h 1 (by omega), h 2 (by omega), h 3 (by omega)]

theorem byteOf_xor (v w : Word) (k : Nat) : byteOf (v ^^^ w) k = byteOf v k ^^^ byteOf w k := by
  refine BitVec.eq_of_getLsbD_eq fun i hi => ?_
  simp [byteOf, hi]

theorem word4_xor (a b c d a' b' c' d' : Byte) :
    word4 (a ^^^ a') (b ^^^ b') (c ^^^ c') (d ^^^ d') = word4 a b c d ^^^ word4 a' b' c' d' := by
  refine word_ext fun k hk => ?_
  rw [byteOf_xor, byteOf_word4 _ _ _ _ hk, byteOf_word4 _ _ _ _ hk, byteOf_word4 _ _ _ _ hk]
  match k, hk with
  | 0, _ | 1, _ | 2, _ | 3, _ => rfl

/-- Byte `i` of a block operand (R74). -/
theorem nth_blk (w : Vector Word 4) {i : Nat} (h : i < 16) : nth (blk w) i = byteOf (nth w (i / 4)) (i % 4) := by
  simp only [blk]
  rw [nth_ofFn _ h]

/-- Word `j` of a block result (R74). -/
theorem nth_unblk (b : Block) {j : Nat} (h : j < 4) :
    nth (unblk b) j = word4 (nth b (4 * j)) (nth b (4 * j + 1)) (nth b (4 * j + 2)) (nth b (4 * j + 3)) := by
  simp only [unblk]
  rw [nth_ofFn _ h]

/-- Splitting the words of a block gives the block (R13). -/
theorem blk_unblk (b : Block) : blk (unblk b) = b := by
  refine nth_ext fun i hi => ?_
  obtain ⟨q, r, hr, rfl⟩ : ∃ q r, r < 4 ∧ i = 4 * q + r := ⟨i / 4, i % 4, by omega, by omega⟩
  rw [nth_blk _ hi, nth_unblk _ (by omega), byteOf_word4 _ _ _ _ (by omega)]
  have hq : (4 * q + r) / 4 = q := by omega
  have hm : (4 * q + r) % 4 = r := by omega
  simp only [hq, hm]
  match r, hr with
  | 0, _ | 1, _ | 2, _ | 3, _ => rfl

/-- Joining the bytes of four words gives the words (R13). -/
theorem unblk_blk (w : Vector Word 4) : unblk (blk w) = w := by
  refine nth_ext fun j hj => ?_
  rw [nth_unblk _ hj, nth_blk _ (by omega), nth_blk _ (by omega), nth_blk _ (by omega), nth_blk _ (by omega)]
  rw [show 4 * j / 4 = j by omega, show (4 * j + 1) / 4 = j by omega, show (4 * j + 2) / 4 = j by omega,
    show (4 * j + 3) / 4 = j by omega, show 4 * j % 4 = 0 by omega, show (4 * j + 1) % 4 = 1 by omega,
    show (4 * j + 2) % 4 = 2 by omega, show (4 * j + 3) % 4 = 3 by omega]
  exact word4_byteOf _

/-- Byte `j` of the staged key (R36). -/
theorem nth_stagedKey (key : Vector Word 8) {j : Nat} (h : j < 32) :
    nth (stagedKey key) j = byteOf (nth key (j / 4)) (j % 4) := by
  simp only [stagedKey]
  rw [nth_ofFn _ h]

theorem nth_xorBytes [NeZero n] (a b : Vector Byte n) {i : Nat} (h : i < n) :
    nth (xorBytes a b) i = nth a i ^^^ nth b i := by
  simp only [xorBytes]
  rw [nth_ofFn _ h, nth_of_lt _ h, nth_of_lt _ h]
  rfl

theorem nth_bytes4 (w : Word) {k : Nat} (h : k < 4) : nth (bytes4 w) k = byteOf w k := by
  simp only [bytes4]
  rw [nth_ofFn _ h]

/-- `word4` inverts `bytes4` (R13). -/
theorem joinBytes_bytes4 (w : Word) : joinBytes (bytes4 w) = w := by
  simpa [joinBytes, bytes4] using word4_byteOf w

/-- A row-and-column block, byte by byte (R200). -/
theorem nth_ofRows (f : Nat → Nat → Byte) {q j : Nat} (hq : q < 4) (hj : j < 4) : nth (ofRows f) (4 * q + j) = f q j := by
  simp only [ofRows]
  rw [nth_ofFn _ (by omega)]
  simp [show (4 * q + j) / 4 = q by omega, show (4 * q + j) % 4 = j by omega]

end Sys2Proof.Laws
end

