-- ==== Sys2Proof/Laws/Decode.lean ====
section
/-! SUPPORT. The fields of an encoded command (30_encoding R90, R91, R104), and what decoding accepts. -/

namespace Sys2Proof.Laws

theorem opField_eq (w : Word) : opField w = w.toNat % 256 := by
  simp [opField, BitVec.extractLsb'_toNat]

theorem selField_eq (w : Word) : selField w = w.toNat / 256 % 16 := by
  simp [selField, BitVec.extractLsb'_toNat, Nat.shiftRight_eq_div_pow]

theorem nField_eq (w : Word) : nField w = w.toNat / 4096 % 8 := by
  simp [nField, BitVec.extractLsb'_toNat, Nat.shiftRight_eq_div_pow]

theorem rsvField_eq (w : Word) : rsvField w = w.toNat / 32768 % 2 := by
  simp [rsvField, BitVec.extractLsb'_toNat, Nat.shiftRight_eq_div_pow]

theorem idxField_eq (w : Word) : idxField w = w.toNat / 65536 := by
  have := w.isLt
  simp only [idxField, BitVec.extractLsb'_toNat, Nat.shiftRight_eq_div_pow]
  omega

theorem selField_lt (w : Word) : selField w < 16 := by rw [selField_eq]; omega

theorem nField_lt (w : Word) : nField w < 8 := by rw [nField_eq]; omega

theorem idxField_lt (w : Word) : idxField w < 65536 := by
  have := w.isLt
  rw [idxField_eq]; omega

/-- The fields of the word R104 assembles from fields in range are those fields, with bit 15 zero. -/
theorem assembled_fields {o a b c : Nat} (ho : o < 256) (ha : a < 16) (hb : b < 8) (hc : c < 65536) :
    let w := BitVec.ofNat 32 (o + 256 * a + 4096 * b + 65536 * c)
    opField w = o ∧ selField w = a ∧ nField w = b ∧ rsvField w = 0 ∧ idxField w = c := by
  simp only [opField_eq, selField_eq, nField_eq, rsvField_eq, idxField_eq, BitVec.toNat_ofNat]
  omega

/-- A word is assembled from its own fields, when bit 15 is zero (R91, R104). -/
theorem word_of_fields {w : Word} (h : rsvField w = 0) :
    w = BitVec.ofNat 32 (opField w + 256 * selField w + 4096 * nField w + 65536 * idxField w) := by
  apply BitVec.eq_of_toNat_eq
  have := w.isLt
  rw [rsvField_eq] at h
  simp only [opField_eq, selField_eq, nField_eq, idxField_eq, BitVec.toNat_ofNat]
  omega

theorem opcode_lt (i : Instr) : opcode i < 256 := by cases i <;> simp [opcode]

end Sys2Proof.Laws
end

