-- ==== Sys2Proof/Laws/KeySchedule.lean ====
section
/-! SUPPORT. The key schedule entry by entry (40_key_schedule R121 to R132): a table's final entry is found by tracing one
index through the swaps, with no table at hand. -/

namespace Sys2Proof.Laws

open Sys2Proof.Machine

/-- The partner lies in `0..i` (R122). -/
theorem partner_le (kb : Nat → Byte) (i : Nat) : partner kb i ≤ i :=
  Nat.lt_succ_iff.mp (Nat.mod_lt _ (Nat.succ_pos i))

/-- Where the exchange of `i` and `j` takes index `x`. -/
def transpose (i j x : Nat) : Nat := if x = i then j else if x = j then i else x

theorem transpose_lt {n i j x : Nat} (hi : i < n) (hj : j < n) (hx : x < n) : transpose i j x < n := by
  unfold transpose
  split_ifs <;> assumption

theorem transpose_transpose (i j x : Nat) : transpose i j (transpose i j x) = x := by
  unfold transpose
  split_ifs <;> omega

/-- An exchange reads the table at the transposed index (R121, R129). -/
theorem nth_swapEntries_transpose {α : Type} {n : Nat} [NeZero n] (t : Vector α n) {i j k : Nat}
    (hi : i < n) (hj : j < n) (hk : k < n) : nth (swapEntries t i j) k = nth t (transpose i j k) := by
  rw [nth_swapEntries t hi hj hk]
  unfold transpose
  split_ifs <;> rfl

/-- The index of the starting table whose entry the shuffle's steps `m, ..., 1` bring to index `x`. -/
def shuffleSource (kb : Nat → Byte) : Nat → Nat → Nat
  | 0, x => x
  | i + 1, x => transpose (i + 1) (partner kb (i + 1)) (shuffleSource kb i x)

theorem shuffleSource_lt {n : Nat} (kb : Nat → Byte) : ∀ {m x : Nat}, m < n → x < n → shuffleSource kb m x < n
  | 0, _, _, hx => hx
  | i + 1, _, hm, hx =>
    transpose_lt hm (lt_of_le_of_lt (partner_le kb (i + 1)) hm) (shuffleSource_lt kb (by omega) hx)

/-- The shuffle's steps, entry by entry (R121). -/
theorem nth_shuffleFrom {w n : Nat} [NeZero n] (kb : Nat → Byte) :
    ∀ (m : Nat) (t : Vector (BitVec w) n) {x : Nat}, m < n → x < n →
      nth (shuffleFrom kb m t) x = nth t (shuffleSource kb m x)
  | 0, _, _, _, _ => rfl
  | i + 1, t, x, hm, hx => by
    have hp : partner kb (i + 1) < n := lt_of_le_of_lt (partner_le kb (i + 1)) hm
    have hs : shuffleSource kb i x < n := shuffleSource_lt kb (by omega) hx
    rw [shuffleFrom, nth_shuffleFrom kb i _ (by omega) hx, nth_swapEntries_transpose t hm hp hs]
    rfl

/-- An entry of a shuffled table (R121). -/
theorem nth_shuffle {w n : Nat} [NeZero n] (kb : Nat → Byte) {x : Nat} (hx : x < n) :
    nth (shuffle w n kb) x = BitVec.ofNat w (shuffleSource kb (n - 1) x) := by
  have hn : n - 1 < n := Nat.sub_lt (NeZero.pos n) Nat.one_pos
  rw [shuffle, nth_shuffleFrom kb _ _ hn hx, nth_identityTable (shuffleSource_lt kb hn hx)]

/-- An entry of the plugboard's construction after the swaps of a list of steps. -/
theorem nth_plugFold (pair : Nat → Half × Half) (l : List Nat) (t : Table) {x : Nat} (hx : x < 65536) :
    nth (l.foldl (fun t i => swapEntries t (pair i).1.toNat (pair i).2.toNat) t) x =
      nth t (l.foldr (fun i y => transpose (pair i).1.toNat (pair i).2.toNat y) x) ∧
    l.foldr (fun i y => transpose (pair i).1.toNat (pair i).2.toNat y) x < 65536 := by
  induction l generalizing t with
  | nil => exact ⟨rfl, hx⟩
  | cons i l ih =>
    have h := ih (swapEntries t (pair i).1.toNat (pair i).2.toNat)
    refine ⟨?_, transpose_lt (pair i).1.isLt (pair i).2.isLt h.2⟩
    rw [List.foldl_cons, h.1, nth_swapEntries_transpose t (pair i).1.isLt (pair i).2.isLt h.2]
    rfl

/-- An entry of the plugboard, for any `PLUG_PAIR` (R129). -/
theorem nth_ksPlugWith (pair : Key → Nat → Half × Half) (k : Key) {x : Nat} (hx : x < 65536) :
    nth (ksPlugWith pair k) x = BitVec.ofNat 16
      ((List.range (plugSwaps k)).foldr (fun i y => transpose (pair k i).1.toNat (pair k i).2.toNat y) x) := by
  have h := nth_plugFold (pair k) (List.range (plugSwaps k)) (identityTable 16 65536) hx
  rw [ksPlugWith, h.1, nth_identityTable h.2]

/-! ### The parameter `PLUG_PAIR` (R7, R128) -/

/-- With no key listed, the parameter is the default formula. -/
theorem plugPair_nil : plugPair [] = defaultPlugPair := rfl

/-- A listed key takes its listed pairs. -/
theorem plugPair_cons_self (k : Key) (p : PlugPairs) (pairs : PlugParameter) (i : Nat) :
    plugPair ((k, p) :: pairs) k i = nth p i := by
  simp [plugPair]

/-- A swap count is at most 149 (R135). -/
theorem plugSwaps_le (k : Key) : plugSwaps k ≤ 149 := by
  unfold plugSwaps
  omega

/-- The plugboard reads the pairs of steps 0 to 148 alone. -/
theorem ksPlugWith_congr {f g : Key → Nat → Half × Half} {k : Key} (h : ∀ i < 149, f k i = g k i) :
    ksPlugWith f k = ksPlugWith g k := by
  refine nth_ext fun x hx => ?_
  rw [nth_ksPlugWith f k hx, nth_ksPlugWith g k hx]
  have hl : ∀ l : List Nat, (∀ i ∈ l, i < 149) →
      l.foldr (fun i y => transpose (f k i).1.toNat (f k i).2.toNat y) x =
        l.foldr (fun i y => transpose (g k i).1.toNat (g k i).2.toNat y) x := by
    intro l hl
    induction l with
    | nil => rfl
    | cons i l ih =>
      rw [List.foldr_cons, List.foldr_cons, ih fun j hj => hl j (List.mem_cons_of_mem _ hj),
        h i (hl i List.mem_cons_self)]
  rw [hl _ fun i hi => by have := List.mem_range.mp hi; have := plugSwaps_le k; omega]

/-- There are finitely many keys. -/
theorem finite_key : Finite Key :=
  Finite.of_injective (fun (k : Key) (i : Fin 32) => (nth k i.val).toFin) fun _ _ h =>
    nth_ext fun i hi => BitVec.eq_of_toNat_eq (congrArg Fin.val (congrFun h ⟨i, hi⟩))

/-- Every function `PLUG_PAIR` is a value of the parameter: no formula is shut out. -/
theorem exists_plugParameter (f : Key → Nat → Half × Half) :
    ∃ pairs : PlugParameter, ∀ k, ∀ i < 149, plugPair pairs k i = f k i := by
  have := finite_key
  obtain ⟨keys, hkeys⟩ : ∃ keys : List Key, ∀ k, k ∈ keys :=
    ⟨(Set.finite_univ : (Set.univ : Set Key).Finite).toFinset.toList, fun k => by simp⟩
  refine ⟨keys.map fun k => (k, Vector.ofFn fun i : Fin 149 => f k i), fun k i hi => ?_⟩
  have hk : keys.find? (fun k' => k' == k) = some k := by
    cases h : keys.find? (fun k' => k' == k) with
    | none => exact absurd (List.find?_eq_none.mp h k (hkeys k)) (by simp)
    | some k' => exact congrArg some (by simpa using List.find?_some h)
  have hf : (keys.map fun k => (k, Vector.ofFn fun i : Fin 149 => f k i)).find? (fun entry => entry.1 == k) =
      some (k, Vector.ofFn fun i : Fin 149 => f k i) := by
    rw [List.find?_map]
    simpa [Function.comp_def] using hk
  simp only [plugPair, hf]
  rw [nth_ofFn _ hi]

/-- The writes of the inverse's construction, below index `m`: an injective table's entry `x < m` is found again. -/
theorem nth_invertFrom {w n : Nat} [NeZero n] (t : Vector (BitVec w) n) (hr : ∀ x < n, (nth t x).toNat < n)
    (hi : ∀ x < n, ∀ y < n, nth t x = nth t y → x = y) :
    ∀ (m : Nat) (acc : Vector (BitVec w) n), m ≤ n →
      (∀ x < m, nth (invertFrom t m acc) (nth t x).toNat = BitVec.ofNat w x) ∧
      (∀ z < n, (∀ x < m, (nth t x).toNat ≠ z) → nth (invertFrom t m acc) z = nth acc z)
  | 0, _, _ => ⟨fun _ h => absurd h (Nat.not_lt_zero _), fun _ _ _ => rfl⟩
  | m + 1, acc, hm => by
    have ih := nth_invertFrom t hr hi m (upd acc (nth t m).toNat (BitVec.ofNat w m)) (by omega)
    refine ⟨fun x hx => ?_, fun z hz h => ?_⟩
    · rcases Nat.lt_succ_iff_lt_or_eq.mp hx with hlt | rfl
      · exact ih.1 x hlt
      · rw [invertFrom, ih.2 _ (hr x (by omega)) fun y hy he => ?_, nth_upd_same _ _ (hr x (by omega))]
        have := hi y (by omega) x (by omega) (BitVec.eq_of_toNat_eq he)
        omega
    · rw [invertFrom, ih.2 z hz fun x hx => h x (by omega), nth_upd_ne _ _ (hr m (by omega)) hz]
      exact fun he => h m (by omega) he.symm

/-- The inverse of an injective table finds every entry again (R127, R131). -/
theorem nth_invertTable {w n : Nat} [NeZero n] (t : Vector (BitVec w) n) (hr : ∀ x < n, (nth t x).toNat < n)
    (hi : ∀ x < n, ∀ y < n, nth t x = nth t y → x = y) {x : Nat} (hx : x < n) :
    nth (invertTable t) (nth t x).toNat = BitVec.ofNat w x := by
  rw [invertTable]
  exact (nth_invertFrom t hr hi n _ le_rfl).1 x hx

/-- Byte `i` of a round key (R132). -/
theorem nth_roundKey (k : Key) (round : Nat) {i : Nat} (hi : i < 16) :
    nth (roundKey k round) i = keyByte k (i + round * 4) := by
  simp only [roundKey]
  rw [nth_ofFn _ hi]
  rfl

theorem nth_ksPositions (k : Key) {r : Nat} (hr : r < 8) : nth (ksPositions k) r = ksPos k r := by
  simp only [ksPositions]
  rw [nth_ofFn _ hr]

theorem nth_ksNotchCounts (k : Key) {r : Nat} (hr : r < 8) : nth (ksNotchCounts k) r = ksNcnt k r := by
  simp only [ksNotchCounts]
  rw [nth_ofFn _ hr]

theorem nth_ksNotchSlots (k : Key) {r n : Nat} (hr : r < 8) (hn : n < 7) :
    nth (nth (ksNotchSlots k) r) n = ksNotch k r n := by
  simp only [ksNotchSlots]
  rw [nth_ofFn _ hr, nth_ofFn _ hn]

theorem nth_ksForwardBank (k : Key) {r : Nat} (hr : r < 8) : nth (ksForwardBank k) r = ksRfwd k r := by
  simp only [ksForwardBank]
  rw [nth_ofFn _ hr]

theorem nth_ksInverseBank (k : Key) {r : Nat} (hr : r < 8) : nth (ksInverseBank k) r = ksRinv k r := by
  simp only [ksInverseBank]
  rw [nth_ofFn _ hr]

end Sys2Proof.Laws
end

