-- ==== Sys2Proof/Laws/State.lean ====
section
/-! SUPPORT. One lemma per field per update of the state, each true by rfl: what the operation writes there, or that it
leaves the field. -/

namespace Sys2Proof.Laws

open Sys2Proof.Machine

/-! ### `accept` (R68) -/

@[simp] theorem accept_din (v : Word) (s : State) : (accept v s).din = s.din := rfl
@[simp] theorem accept_dout (v : Word) (s : State) : (accept v s).dout = s.dout := rfl
@[simp] theorem accept_diag (v : Word) (s : State) : (accept v s).diag = s.diag := rfl
@[simp] theorem accept_ie (v : Word) (s : State) : (accept v s).ie = s.ie := rfl
@[simp] theorem accept_init (v : Word) (s : State) : (accept v s).init = s.init := rfl
@[simp] theorem accept_busy (v : Word) (s : State) : (accept v s).busy = true := rfl
@[simp] theorem accept_done (v : Word) (s : State) : (accept v s).done = false := rfl
@[simp] theorem accept_err (v : Word) (s : State) : (accept v s).err = s.err := rfl
@[simp] theorem accept_ovr (v : Word) (s : State) : (accept v s).ovr = s.ovr := rfl
@[simp] theorem accept_mode (v : Word) (s : State) : (accept v s).mode = s.mode := rfl
@[simp] theorem accept_cst (v : Word) (s : State) : (accept v s).cst = s.cst := rfl
@[simp] theorem accept_bst (v : Word) (s : State) : (accept v s).bst = s.bst := rfl
@[simp] theorem accept_keymask (v : Word) (s : State) : (accept v s).keymask = s.keymask := rfl
@[simp] theorem accept_errcode (v : Word) (s : State) : (accept v s).errcode = s.errcode := rfl
@[simp] theorem accept_key (v : Word) (s : State) : (accept v s).key = s.key := rfl
@[simp] theorem accept_pending (v : Word) (s : State) : (accept v s).pending = v := rfl
@[simp] theorem accept_mkey (v : Word) (s : State) : (accept v s).mkey = s.mkey := rfl
@[simp] theorem accept_pos (v : Word) (s : State) : (accept v s).pos = s.pos := rfl
@[simp] theorem accept_ncnt (v : Word) (s : State) : (accept v s).ncnt = s.ncnt := rfl
@[simp] theorem accept_notch (v : Word) (s : State) : (accept v s).notch = s.notch := rfl
@[simp] theorem accept_rfwd (v : Word) (s : State) : (accept v s).rfwd = s.rfwd := rfl
@[simp] theorem accept_rinv (v : Word) (s : State) : (accept v s).rinv = s.rinv := rfl
@[simp] theorem accept_plug (v : Word) (s : State) : (accept v s).plug = s.plug := rfl
@[simp] theorem accept_sbox (v : Word) (s : State) : (accept v s).sbox = s.sbox := rfl
@[simp] theorem accept_isbox (v : Word) (s : State) : (accept v s).isbox = s.isbox := rfl
@[simp] theorem accept_creg (v : Word) (s : State) : (accept v s).creg = s.creg := rfl
@[simp] theorem accept_breg (v : Word) (s : State) : (accept v s).breg = s.breg := rfl
@[simp] theorem accept_inputs (v : Word) (s : State) : (accept v s).inputs = s.inputs := rfl
@[simp] theorem accept_readData (v : Word) (s : State) : (accept v s).readData = s.readData := rfl
@[simp] theorem accept_draws (v : Word) (s : State) : (accept v s).draws = s.draws := rfl
@[simp] theorem accept_plugPairs (v : Word) (s : State) : (accept v s).plugPairs = s.plugPairs := rfl
@[simp] theorem accept_sboxKeyOffset (v : Word) (s : State) : (accept v s).sboxKeyOffset = s.sboxKeyOffset := rfl

/-! ### `complete` (R313) -/

@[simp] theorem complete_din (e : BitVec 4) (s : State) : (complete e s).din = s.din := rfl
@[simp] theorem complete_dout (e : BitVec 4) (s : State) : (complete e s).dout = s.dout := rfl
@[simp] theorem complete_diag (e : BitVec 4) (s : State) : (complete e s).diag = s.diag := rfl
@[simp] theorem complete_ie (e : BitVec 4) (s : State) : (complete e s).ie = s.ie := rfl
@[simp] theorem complete_init (e : BitVec 4) (s : State) : (complete e s).init = s.init := rfl
@[simp] theorem complete_busy (e : BitVec 4) (s : State) : (complete e s).busy = false := rfl
@[simp] theorem complete_done (e : BitVec 4) (s : State) : (complete e s).done = true := rfl
@[simp] theorem complete_err (e : BitVec 4) (s : State) : (complete e s).err = (s.err || decide (e ≠ 0)) := rfl
@[simp] theorem complete_ovr (e : BitVec 4) (s : State) : (complete e s).ovr = s.ovr := rfl
@[simp] theorem complete_mode (e : BitVec 4) (s : State) : (complete e s).mode = s.mode := rfl
@[simp] theorem complete_cst (e : BitVec 4) (s : State) : (complete e s).cst = s.cst := rfl
@[simp] theorem complete_bst (e : BitVec 4) (s : State) : (complete e s).bst = s.bst := rfl
@[simp] theorem complete_keymask (e : BitVec 4) (s : State) : (complete e s).keymask = s.keymask := rfl
@[simp] theorem complete_errcode (e : BitVec 4) (s : State) : (complete e s).errcode = e := rfl
@[simp] theorem complete_key (e : BitVec 4) (s : State) : (complete e s).key = s.key := rfl
@[simp] theorem complete_pending (e : BitVec 4) (s : State) : (complete e s).pending = s.pending := rfl
@[simp] theorem complete_mkey (e : BitVec 4) (s : State) : (complete e s).mkey = s.mkey := rfl
@[simp] theorem complete_pos (e : BitVec 4) (s : State) : (complete e s).pos = s.pos := rfl
@[simp] theorem complete_ncnt (e : BitVec 4) (s : State) : (complete e s).ncnt = s.ncnt := rfl
@[simp] theorem complete_notch (e : BitVec 4) (s : State) : (complete e s).notch = s.notch := rfl
@[simp] theorem complete_rfwd (e : BitVec 4) (s : State) : (complete e s).rfwd = s.rfwd := rfl
@[simp] theorem complete_rinv (e : BitVec 4) (s : State) : (complete e s).rinv = s.rinv := rfl
@[simp] theorem complete_plug (e : BitVec 4) (s : State) : (complete e s).plug = s.plug := rfl
@[simp] theorem complete_sbox (e : BitVec 4) (s : State) : (complete e s).sbox = s.sbox := rfl
@[simp] theorem complete_isbox (e : BitVec 4) (s : State) : (complete e s).isbox = s.isbox := rfl
@[simp] theorem complete_creg (e : BitVec 4) (s : State) : (complete e s).creg = s.creg := rfl
@[simp] theorem complete_breg (e : BitVec 4) (s : State) : (complete e s).breg = s.breg := rfl
@[simp] theorem complete_inputs (e : BitVec 4) (s : State) : (complete e s).inputs = s.inputs := rfl
@[simp] theorem complete_readData (e : BitVec 4) (s : State) : (complete e s).readData = s.readData := rfl
@[simp] theorem complete_draws (e : BitVec 4) (s : State) : (complete e s).draws = s.draws := rfl
@[simp] theorem complete_plugPairs (e : BitVec 4) (s : State) : (complete e s).plugPairs = s.plugPairs := rfl
@[simp] theorem complete_sboxKeyOffset (e : BitVec 4) (s : State) :
    (complete e s).sboxKeyOffset = s.sboxKeyOffset := rfl

/-! ### `succeed` (R313) -/

@[simp] theorem succeed_din (s : State) : (succeed s).din = s.din := rfl
@[simp] theorem succeed_dout (s : State) : (succeed s).dout = s.dout := rfl
@[simp] theorem succeed_diag (s : State) : (succeed s).diag = s.diag := rfl
@[simp] theorem succeed_ie (s : State) : (succeed s).ie = s.ie := rfl
@[simp] theorem succeed_init (s : State) : (succeed s).init = s.init := rfl
@[simp] theorem succeed_busy (s : State) : (succeed s).busy = false := rfl
@[simp] theorem succeed_done (s : State) : (succeed s).done = true := rfl
@[simp] theorem succeed_err (s : State) : (succeed s).err = (s.err || decide ((0 : BitVec 4) ≠ 0)) := rfl
@[simp] theorem succeed_ovr (s : State) : (succeed s).ovr = s.ovr := rfl
@[simp] theorem succeed_mode (s : State) : (succeed s).mode = s.mode := rfl
@[simp] theorem succeed_cst (s : State) : (succeed s).cst = s.cst := rfl
@[simp] theorem succeed_bst (s : State) : (succeed s).bst = s.bst := rfl
@[simp] theorem succeed_keymask (s : State) : (succeed s).keymask = s.keymask := rfl
@[simp] theorem succeed_errcode (s : State) : (succeed s).errcode = 0 := rfl
@[simp] theorem succeed_key (s : State) : (succeed s).key = s.key := rfl
@[simp] theorem succeed_pending (s : State) : (succeed s).pending = s.pending := rfl
@[simp] theorem succeed_mkey (s : State) : (succeed s).mkey = s.mkey := rfl
@[simp] theorem succeed_pos (s : State) : (succeed s).pos = s.pos := rfl
@[simp] theorem succeed_ncnt (s : State) : (succeed s).ncnt = s.ncnt := rfl
@[simp] theorem succeed_notch (s : State) : (succeed s).notch = s.notch := rfl
@[simp] theorem succeed_rfwd (s : State) : (succeed s).rfwd = s.rfwd := rfl
@[simp] theorem succeed_rinv (s : State) : (succeed s).rinv = s.rinv := rfl
@[simp] theorem succeed_plug (s : State) : (succeed s).plug = s.plug := rfl
@[simp] theorem succeed_sbox (s : State) : (succeed s).sbox = s.sbox := rfl
@[simp] theorem succeed_isbox (s : State) : (succeed s).isbox = s.isbox := rfl
@[simp] theorem succeed_creg (s : State) : (succeed s).creg = s.creg := rfl
@[simp] theorem succeed_breg (s : State) : (succeed s).breg = s.breg := rfl
@[simp] theorem succeed_inputs (s : State) : (succeed s).inputs = s.inputs := rfl
@[simp] theorem succeed_readData (s : State) : (succeed s).readData = s.readData := rfl
@[simp] theorem succeed_draws (s : State) : (succeed s).draws = s.draws := rfl
@[simp] theorem succeed_plugPairs (s : State) : (succeed s).plugPairs = s.plugPairs := rfl
@[simp] theorem succeed_sboxKeyOffset (s : State) : (succeed s).sboxKeyOffset = s.sboxKeyOffset := rfl

/-! ### `fail` (R309) -/

@[simp] theorem fail_din (e : Err) (s : State) : (fail e s).din = s.din := rfl
@[simp] theorem fail_dout (e : Err) (s : State) : (fail e s).dout = s.dout := rfl
@[simp] theorem fail_diag (e : Err) (s : State) : (fail e s).diag = s.diag := rfl
@[simp] theorem fail_ie (e : Err) (s : State) : (fail e s).ie = s.ie := rfl
@[simp] theorem fail_init (e : Err) (s : State) : (fail e s).init = s.init := rfl
@[simp] theorem fail_busy (e : Err) (s : State) : (fail e s).busy = false := rfl
@[simp] theorem fail_done (e : Err) (s : State) : (fail e s).done = true := rfl
@[simp] theorem fail_err (e : Err) (s : State) : (fail e s).err = (s.err || decide (e.code ≠ 0)) := rfl
@[simp] theorem fail_ovr (e : Err) (s : State) : (fail e s).ovr = s.ovr := rfl
@[simp] theorem fail_mode (e : Err) (s : State) : (fail e s).mode = s.mode := rfl
@[simp] theorem fail_cst (e : Err) (s : State) : (fail e s).cst = s.cst := rfl
@[simp] theorem fail_bst (e : Err) (s : State) : (fail e s).bst = s.bst := rfl
@[simp] theorem fail_keymask (e : Err) (s : State) : (fail e s).keymask = s.keymask := rfl
@[simp] theorem fail_errcode (e : Err) (s : State) : (fail e s).errcode = e.code := rfl
@[simp] theorem fail_key (e : Err) (s : State) : (fail e s).key = s.key := rfl
@[simp] theorem fail_pending (e : Err) (s : State) : (fail e s).pending = s.pending := rfl
@[simp] theorem fail_mkey (e : Err) (s : State) : (fail e s).mkey = s.mkey := rfl
@[simp] theorem fail_pos (e : Err) (s : State) : (fail e s).pos = s.pos := rfl
@[simp] theorem fail_ncnt (e : Err) (s : State) : (fail e s).ncnt = s.ncnt := rfl
@[simp] theorem fail_notch (e : Err) (s : State) : (fail e s).notch = s.notch := rfl
@[simp] theorem fail_rfwd (e : Err) (s : State) : (fail e s).rfwd = s.rfwd := rfl
@[simp] theorem fail_rinv (e : Err) (s : State) : (fail e s).rinv = s.rinv := rfl
@[simp] theorem fail_plug (e : Err) (s : State) : (fail e s).plug = s.plug := rfl
@[simp] theorem fail_sbox (e : Err) (s : State) : (fail e s).sbox = s.sbox := rfl
@[simp] theorem fail_isbox (e : Err) (s : State) : (fail e s).isbox = s.isbox := rfl
@[simp] theorem fail_creg (e : Err) (s : State) : (fail e s).creg = s.creg := rfl
@[simp] theorem fail_breg (e : Err) (s : State) : (fail e s).breg = s.breg := rfl
@[simp] theorem fail_inputs (e : Err) (s : State) : (fail e s).inputs = s.inputs := rfl
@[simp] theorem fail_readData (e : Err) (s : State) : (fail e s).readData = s.readData := rfl
@[simp] theorem fail_draws (e : Err) (s : State) : (fail e s).draws = s.draws := rfl
@[simp] theorem fail_plugPairs (e : Err) (s : State) : (fail e s).plugPairs = s.plugPairs := rfl
@[simp] theorem fail_sboxKeyOffset (e : Err) (s : State) : (fail e s).sboxKeyOffset = s.sboxKeyOffset := rfl

/-! ### `writeValue` (R98) -/

@[simp] theorem writeValue_din (c : Word) (s : State) : (writeValue c s).din = s.din := rfl
@[simp] theorem writeValue_dout (c : Word) (s : State) : (writeValue c s).dout = #v[c, 0, 0, 0] := rfl
@[simp] theorem writeValue_diag (c : Word) (s : State) : (writeValue c s).diag = s.diag := rfl
@[simp] theorem writeValue_ie (c : Word) (s : State) : (writeValue c s).ie = s.ie := rfl
@[simp] theorem writeValue_init (c : Word) (s : State) : (writeValue c s).init = s.init := rfl
@[simp] theorem writeValue_busy (c : Word) (s : State) : (writeValue c s).busy = s.busy := rfl
@[simp] theorem writeValue_done (c : Word) (s : State) : (writeValue c s).done = s.done := rfl
@[simp] theorem writeValue_err (c : Word) (s : State) : (writeValue c s).err = s.err := rfl
@[simp] theorem writeValue_ovr (c : Word) (s : State) : (writeValue c s).ovr = s.ovr := rfl
@[simp] theorem writeValue_mode (c : Word) (s : State) : (writeValue c s).mode = s.mode := rfl
@[simp] theorem writeValue_cst (c : Word) (s : State) : (writeValue c s).cst = s.cst := rfl
@[simp] theorem writeValue_bst (c : Word) (s : State) : (writeValue c s).bst = s.bst := rfl
@[simp] theorem writeValue_keymask (c : Word) (s : State) : (writeValue c s).keymask = s.keymask := rfl
@[simp] theorem writeValue_errcode (c : Word) (s : State) : (writeValue c s).errcode = s.errcode := rfl
@[simp] theorem writeValue_key (c : Word) (s : State) : (writeValue c s).key = s.key := rfl
@[simp] theorem writeValue_pending (c : Word) (s : State) : (writeValue c s).pending = s.pending := rfl
@[simp] theorem writeValue_mkey (c : Word) (s : State) : (writeValue c s).mkey = s.mkey := rfl
@[simp] theorem writeValue_pos (c : Word) (s : State) : (writeValue c s).pos = s.pos := rfl
@[simp] theorem writeValue_ncnt (c : Word) (s : State) : (writeValue c s).ncnt = s.ncnt := rfl
@[simp] theorem writeValue_notch (c : Word) (s : State) : (writeValue c s).notch = s.notch := rfl
@[simp] theorem writeValue_rfwd (c : Word) (s : State) : (writeValue c s).rfwd = s.rfwd := rfl
@[simp] theorem writeValue_rinv (c : Word) (s : State) : (writeValue c s).rinv = s.rinv := rfl
@[simp] theorem writeValue_plug (c : Word) (s : State) : (writeValue c s).plug = s.plug := rfl
@[simp] theorem writeValue_sbox (c : Word) (s : State) : (writeValue c s).sbox = s.sbox := rfl
@[simp] theorem writeValue_isbox (c : Word) (s : State) : (writeValue c s).isbox = s.isbox := rfl
@[simp] theorem writeValue_creg (c : Word) (s : State) : (writeValue c s).creg = s.creg := rfl
@[simp] theorem writeValue_breg (c : Word) (s : State) : (writeValue c s).breg = s.breg := rfl
@[simp] theorem writeValue_inputs (c : Word) (s : State) : (writeValue c s).inputs = s.inputs := rfl
@[simp] theorem writeValue_readData (c : Word) (s : State) : (writeValue c s).readData = s.readData := rfl
@[simp] theorem writeValue_draws (c : Word) (s : State) : (writeValue c s).draws = s.draws := rfl
@[simp] theorem writeValue_plugPairs (c : Word) (s : State) : (writeValue c s).plugPairs = s.plugPairs := rfl
@[simp] theorem writeValue_sboxKeyOffset (c : Word) (s : State) :
    (writeValue c s).sboxKeyOffset = s.sboxKeyOffset := rfl

/-! ### `writePair` (R98) -/

@[simp] theorem writePair_din (c d : Word) (s : State) : (writePair c d s).din = s.din := rfl
@[simp] theorem writePair_dout (c d : Word) (s : State) : (writePair c d s).dout = #v[c, d, 0, 0] := rfl
@[simp] theorem writePair_diag (c d : Word) (s : State) : (writePair c d s).diag = s.diag := rfl
@[simp] theorem writePair_ie (c d : Word) (s : State) : (writePair c d s).ie = s.ie := rfl
@[simp] theorem writePair_init (c d : Word) (s : State) : (writePair c d s).init = s.init := rfl
@[simp] theorem writePair_busy (c d : Word) (s : State) : (writePair c d s).busy = s.busy := rfl
@[simp] theorem writePair_done (c d : Word) (s : State) : (writePair c d s).done = s.done := rfl
@[simp] theorem writePair_err (c d : Word) (s : State) : (writePair c d s).err = s.err := rfl
@[simp] theorem writePair_ovr (c d : Word) (s : State) : (writePair c d s).ovr = s.ovr := rfl
@[simp] theorem writePair_mode (c d : Word) (s : State) : (writePair c d s).mode = s.mode := rfl
@[simp] theorem writePair_cst (c d : Word) (s : State) : (writePair c d s).cst = s.cst := rfl
@[simp] theorem writePair_bst (c d : Word) (s : State) : (writePair c d s).bst = s.bst := rfl
@[simp] theorem writePair_keymask (c d : Word) (s : State) : (writePair c d s).keymask = s.keymask := rfl
@[simp] theorem writePair_errcode (c d : Word) (s : State) : (writePair c d s).errcode = s.errcode := rfl
@[simp] theorem writePair_key (c d : Word) (s : State) : (writePair c d s).key = s.key := rfl
@[simp] theorem writePair_pending (c d : Word) (s : State) : (writePair c d s).pending = s.pending := rfl
@[simp] theorem writePair_mkey (c d : Word) (s : State) : (writePair c d s).mkey = s.mkey := rfl
@[simp] theorem writePair_pos (c d : Word) (s : State) : (writePair c d s).pos = s.pos := rfl
@[simp] theorem writePair_ncnt (c d : Word) (s : State) : (writePair c d s).ncnt = s.ncnt := rfl
@[simp] theorem writePair_notch (c d : Word) (s : State) : (writePair c d s).notch = s.notch := rfl
@[simp] theorem writePair_rfwd (c d : Word) (s : State) : (writePair c d s).rfwd = s.rfwd := rfl
@[simp] theorem writePair_rinv (c d : Word) (s : State) : (writePair c d s).rinv = s.rinv := rfl
@[simp] theorem writePair_plug (c d : Word) (s : State) : (writePair c d s).plug = s.plug := rfl
@[simp] theorem writePair_sbox (c d : Word) (s : State) : (writePair c d s).sbox = s.sbox := rfl
@[simp] theorem writePair_isbox (c d : Word) (s : State) : (writePair c d s).isbox = s.isbox := rfl
@[simp] theorem writePair_creg (c d : Word) (s : State) : (writePair c d s).creg = s.creg := rfl
@[simp] theorem writePair_breg (c d : Word) (s : State) : (writePair c d s).breg = s.breg := rfl
@[simp] theorem writePair_inputs (c d : Word) (s : State) : (writePair c d s).inputs = s.inputs := rfl
@[simp] theorem writePair_readData (c d : Word) (s : State) : (writePair c d s).readData = s.readData := rfl
@[simp] theorem writePair_draws (c d : Word) (s : State) : (writePair c d s).draws = s.draws := rfl
@[simp] theorem writePair_plugPairs (c d : Word) (s : State) : (writePair c d s).plugPairs = s.plugPairs := rfl
@[simp] theorem writePair_sboxKeyOffset (c d : Word) (s : State) :
    (writePair c d s).sboxKeyOffset = s.sboxKeyOffset := rfl

/-! ### `writeBlock` (R98) -/

@[simp] theorem writeBlock_din (b : Block) (s : State) : (writeBlock b s).din = s.din := rfl
@[simp] theorem writeBlock_dout (b : Block) (s : State) : (writeBlock b s).dout = unblk b := rfl
@[simp] theorem writeBlock_diag (b : Block) (s : State) : (writeBlock b s).diag = s.diag := rfl
@[simp] theorem writeBlock_ie (b : Block) (s : State) : (writeBlock b s).ie = s.ie := rfl
@[simp] theorem writeBlock_init (b : Block) (s : State) : (writeBlock b s).init = s.init := rfl
@[simp] theorem writeBlock_busy (b : Block) (s : State) : (writeBlock b s).busy = s.busy := rfl
@[simp] theorem writeBlock_done (b : Block) (s : State) : (writeBlock b s).done = s.done := rfl
@[simp] theorem writeBlock_err (b : Block) (s : State) : (writeBlock b s).err = s.err := rfl
@[simp] theorem writeBlock_ovr (b : Block) (s : State) : (writeBlock b s).ovr = s.ovr := rfl
@[simp] theorem writeBlock_mode (b : Block) (s : State) : (writeBlock b s).mode = s.mode := rfl
@[simp] theorem writeBlock_cst (b : Block) (s : State) : (writeBlock b s).cst = s.cst := rfl
@[simp] theorem writeBlock_bst (b : Block) (s : State) : (writeBlock b s).bst = s.bst := rfl
@[simp] theorem writeBlock_keymask (b : Block) (s : State) : (writeBlock b s).keymask = s.keymask := rfl
@[simp] theorem writeBlock_errcode (b : Block) (s : State) : (writeBlock b s).errcode = s.errcode := rfl
@[simp] theorem writeBlock_key (b : Block) (s : State) : (writeBlock b s).key = s.key := rfl
@[simp] theorem writeBlock_pending (b : Block) (s : State) : (writeBlock b s).pending = s.pending := rfl
@[simp] theorem writeBlock_mkey (b : Block) (s : State) : (writeBlock b s).mkey = s.mkey := rfl
@[simp] theorem writeBlock_pos (b : Block) (s : State) : (writeBlock b s).pos = s.pos := rfl
@[simp] theorem writeBlock_ncnt (b : Block) (s : State) : (writeBlock b s).ncnt = s.ncnt := rfl
@[simp] theorem writeBlock_notch (b : Block) (s : State) : (writeBlock b s).notch = s.notch := rfl
@[simp] theorem writeBlock_rfwd (b : Block) (s : State) : (writeBlock b s).rfwd = s.rfwd := rfl
@[simp] theorem writeBlock_rinv (b : Block) (s : State) : (writeBlock b s).rinv = s.rinv := rfl
@[simp] theorem writeBlock_plug (b : Block) (s : State) : (writeBlock b s).plug = s.plug := rfl
@[simp] theorem writeBlock_sbox (b : Block) (s : State) : (writeBlock b s).sbox = s.sbox := rfl
@[simp] theorem writeBlock_isbox (b : Block) (s : State) : (writeBlock b s).isbox = s.isbox := rfl
@[simp] theorem writeBlock_creg (b : Block) (s : State) : (writeBlock b s).creg = s.creg := rfl
@[simp] theorem writeBlock_breg (b : Block) (s : State) : (writeBlock b s).breg = s.breg := rfl
@[simp] theorem writeBlock_inputs (b : Block) (s : State) : (writeBlock b s).inputs = s.inputs := rfl
@[simp] theorem writeBlock_readData (b : Block) (s : State) : (writeBlock b s).readData = s.readData := rfl
@[simp] theorem writeBlock_draws (b : Block) (s : State) : (writeBlock b s).draws = s.draws := rfl
@[simp] theorem writeBlock_plugPairs (b : Block) (s : State) : (writeBlock b s).plugPairs = s.plugPairs := rfl
@[simp] theorem writeBlock_sboxKeyOffset (b : Block) (s : State) :
    (writeBlock b s).sboxKeyOffset = s.sboxKeyOffset := rfl

/-! ### `transform` (R214) -/

@[simp] theorem transform_din (f : Block → Block) (s : State) : (transform f s).din = s.din := rfl
@[simp] theorem transform_dout (f : Block → Block) (s : State) :
    (transform f s).dout = unblk (f (blockOperand s)) := rfl
@[simp] theorem transform_diag (f : Block → Block) (s : State) : (transform f s).diag = s.diag := rfl
@[simp] theorem transform_ie (f : Block → Block) (s : State) : (transform f s).ie = s.ie := rfl
@[simp] theorem transform_init (f : Block → Block) (s : State) : (transform f s).init = s.init := rfl
@[simp] theorem transform_busy (f : Block → Block) (s : State) : (transform f s).busy = s.busy := rfl
@[simp] theorem transform_done (f : Block → Block) (s : State) : (transform f s).done = s.done := rfl
@[simp] theorem transform_err (f : Block → Block) (s : State) : (transform f s).err = s.err := rfl
@[simp] theorem transform_ovr (f : Block → Block) (s : State) : (transform f s).ovr = s.ovr := rfl
@[simp] theorem transform_mode (f : Block → Block) (s : State) : (transform f s).mode = s.mode := rfl
@[simp] theorem transform_cst (f : Block → Block) (s : State) : (transform f s).cst = s.cst := rfl
@[simp] theorem transform_bst (f : Block → Block) (s : State) : (transform f s).bst = s.bst := rfl
@[simp] theorem transform_keymask (f : Block → Block) (s : State) : (transform f s).keymask = s.keymask := rfl
@[simp] theorem transform_errcode (f : Block → Block) (s : State) : (transform f s).errcode = s.errcode := rfl
@[simp] theorem transform_key (f : Block → Block) (s : State) : (transform f s).key = s.key := rfl
@[simp] theorem transform_pending (f : Block → Block) (s : State) : (transform f s).pending = s.pending := rfl
@[simp] theorem transform_mkey (f : Block → Block) (s : State) : (transform f s).mkey = s.mkey := rfl
@[simp] theorem transform_pos (f : Block → Block) (s : State) : (transform f s).pos = s.pos := rfl
@[simp] theorem transform_ncnt (f : Block → Block) (s : State) : (transform f s).ncnt = s.ncnt := rfl
@[simp] theorem transform_notch (f : Block → Block) (s : State) : (transform f s).notch = s.notch := rfl
@[simp] theorem transform_rfwd (f : Block → Block) (s : State) : (transform f s).rfwd = s.rfwd := rfl
@[simp] theorem transform_rinv (f : Block → Block) (s : State) : (transform f s).rinv = s.rinv := rfl
@[simp] theorem transform_plug (f : Block → Block) (s : State) : (transform f s).plug = s.plug := rfl
@[simp] theorem transform_sbox (f : Block → Block) (s : State) : (transform f s).sbox = s.sbox := rfl
@[simp] theorem transform_isbox (f : Block → Block) (s : State) : (transform f s).isbox = s.isbox := rfl
@[simp] theorem transform_creg (f : Block → Block) (s : State) : (transform f s).creg = s.creg := rfl
@[simp] theorem transform_breg (f : Block → Block) (s : State) : (transform f s).breg = s.breg := rfl
@[simp] theorem transform_inputs (f : Block → Block) (s : State) : (transform f s).inputs = s.inputs := rfl
@[simp] theorem transform_readData (f : Block → Block) (s : State) : (transform f s).readData = s.readData := rfl
@[simp] theorem transform_draws (f : Block → Block) (s : State) : (transform f s).draws = s.draws := rfl
@[simp] theorem transform_plugPairs (f : Block → Block) (s : State) : (transform f s).plugPairs = s.plugPairs := rfl
@[simp] theorem transform_sboxKeyOffset (f : Block → Block) (s : State) :
    (transform f s).sboxKeyOffset = s.sboxKeyOffset := rfl

/-! ### `stepRotors` (R152) -/

@[simp] theorem stepRotors_din (s : State) : (s.stepRotors).din = s.din := rfl
@[simp] theorem stepRotors_dout (s : State) : (s.stepRotors).dout = s.dout := rfl
@[simp] theorem stepRotors_diag (s : State) : (s.stepRotors).diag = s.diag := rfl
@[simp] theorem stepRotors_ie (s : State) : (s.stepRotors).ie = s.ie := rfl
@[simp] theorem stepRotors_init (s : State) : (s.stepRotors).init = s.init := rfl
@[simp] theorem stepRotors_busy (s : State) : (s.stepRotors).busy = s.busy := rfl
@[simp] theorem stepRotors_done (s : State) : (s.stepRotors).done = s.done := rfl
@[simp] theorem stepRotors_err (s : State) : (s.stepRotors).err = s.err := rfl
@[simp] theorem stepRotors_ovr (s : State) : (s.stepRotors).ovr = s.ovr := rfl
@[simp] theorem stepRotors_mode (s : State) : (s.stepRotors).mode = s.mode := rfl
@[simp] theorem stepRotors_cst (s : State) : (s.stepRotors).cst = s.cst := rfl
@[simp] theorem stepRotors_bst (s : State) : (s.stepRotors).bst = s.bst := rfl
@[simp] theorem stepRotors_keymask (s : State) : (s.stepRotors).keymask = s.keymask := rfl
@[simp] theorem stepRotors_errcode (s : State) : (s.stepRotors).errcode = s.errcode := rfl
@[simp] theorem stepRotors_key (s : State) : (s.stepRotors).key = s.key := rfl
@[simp] theorem stepRotors_pending (s : State) : (s.stepRotors).pending = s.pending := rfl
@[simp] theorem stepRotors_mkey (s : State) : (s.stepRotors).mkey = s.mkey := rfl
@[simp] theorem stepRotors_pos (s : State) : (s.stepRotors).pos = rotorStep s.ncnt s.notch s.pos := rfl
@[simp] theorem stepRotors_ncnt (s : State) : (s.stepRotors).ncnt = s.ncnt := rfl
@[simp] theorem stepRotors_notch (s : State) : (s.stepRotors).notch = s.notch := rfl
@[simp] theorem stepRotors_rfwd (s : State) : (s.stepRotors).rfwd = s.rfwd := rfl
@[simp] theorem stepRotors_rinv (s : State) : (s.stepRotors).rinv = s.rinv := rfl
@[simp] theorem stepRotors_plug (s : State) : (s.stepRotors).plug = s.plug := rfl
@[simp] theorem stepRotors_sbox (s : State) : (s.stepRotors).sbox = s.sbox := rfl
@[simp] theorem stepRotors_isbox (s : State) : (s.stepRotors).isbox = s.isbox := rfl
@[simp] theorem stepRotors_creg (s : State) : (s.stepRotors).creg = s.creg := rfl
@[simp] theorem stepRotors_breg (s : State) : (s.stepRotors).breg = s.breg := rfl
@[simp] theorem stepRotors_inputs (s : State) : (s.stepRotors).inputs = s.inputs := rfl
@[simp] theorem stepRotors_readData (s : State) : (s.stepRotors).readData = s.readData := rfl
@[simp] theorem stepRotors_draws (s : State) : (s.stepRotors).draws = s.draws := rfl
@[simp] theorem stepRotors_plugPairs (s : State) : (s.stepRotors).plugPairs = s.plugPairs := rfl
@[simp] theorem stepRotors_sboxKeyOffset (s : State) : (s.stepRotors).sboxKeyOffset = s.sboxKeyOffset := rfl

/-! ### `encryptChar` (R241) -/

@[simp] theorem encryptChar_din (s : State) : (encryptChar s).din = s.din := rfl
@[simp] theorem encryptChar_dout (s : State) :
    (encryptChar s).dout = #v[joinBytes (xorBytes (bytes4 (encryptValue s (codePoint s))) (cregLow s.creg)), 0, 0, 0] := rfl
@[simp] theorem encryptChar_diag (s : State) : (encryptChar s).diag = s.diag := rfl
@[simp] theorem encryptChar_ie (s : State) : (encryptChar s).ie = s.ie := rfl
@[simp] theorem encryptChar_init (s : State) : (encryptChar s).init = s.init := rfl
@[simp] theorem encryptChar_busy (s : State) : (encryptChar s).busy = s.busy := rfl
@[simp] theorem encryptChar_done (s : State) : (encryptChar s).done = s.done := rfl
@[simp] theorem encryptChar_err (s : State) : (encryptChar s).err = s.err := rfl
@[simp] theorem encryptChar_ovr (s : State) : (encryptChar s).ovr = s.ovr := rfl
@[simp] theorem encryptChar_mode (s : State) : (encryptChar s).mode = false := rfl
@[simp] theorem encryptChar_cst (s : State) : (encryptChar s).cst = true := rfl
@[simp] theorem encryptChar_bst (s : State) : (encryptChar s).bst = s.bst := rfl
@[simp] theorem encryptChar_keymask (s : State) : (encryptChar s).keymask = s.keymask := rfl
@[simp] theorem encryptChar_errcode (s : State) : (encryptChar s).errcode = s.errcode := rfl
@[simp] theorem encryptChar_key (s : State) : (encryptChar s).key = s.key := rfl
@[simp] theorem encryptChar_pending (s : State) : (encryptChar s).pending = s.pending := rfl
@[simp] theorem encryptChar_mkey (s : State) : (encryptChar s).mkey = s.mkey := rfl
@[simp] theorem encryptChar_pos (s : State) : (encryptChar s).pos = rotorStep s.ncnt s.notch s.pos := rfl
@[simp] theorem encryptChar_ncnt (s : State) : (encryptChar s).ncnt = s.ncnt := rfl
@[simp] theorem encryptChar_notch (s : State) : (encryptChar s).notch = s.notch := rfl
@[simp] theorem encryptChar_rfwd (s : State) : (encryptChar s).rfwd = s.rfwd := rfl
@[simp] theorem encryptChar_rinv (s : State) : (encryptChar s).rinv = s.rinv := rfl
@[simp] theorem encryptChar_plug (s : State) : (encryptChar s).plug = s.plug := rfl
@[simp] theorem encryptChar_sbox (s : State) : (encryptChar s).sbox = s.sbox := rfl
@[simp] theorem encryptChar_isbox (s : State) : (encryptChar s).isbox = s.isbox := rfl
@[simp] theorem encryptChar_creg (s : State) :
    (encryptChar s).creg = writeCregLow s.creg (xorBytes (bytes4 (encryptValue s (codePoint s))) (cregLow s.creg)) := rfl
@[simp] theorem encryptChar_breg (s : State) : (encryptChar s).breg = s.breg := rfl
@[simp] theorem encryptChar_inputs (s : State) : (encryptChar s).inputs = s.inputs := rfl
@[simp] theorem encryptChar_readData (s : State) : (encryptChar s).readData = s.readData := rfl
@[simp] theorem encryptChar_draws (s : State) : (encryptChar s).draws = s.draws := rfl
@[simp] theorem encryptChar_plugPairs (s : State) : (encryptChar s).plugPairs = s.plugPairs := rfl
@[simp] theorem encryptChar_sboxKeyOffset (s : State) : (encryptChar s).sboxKeyOffset = s.sboxKeyOffset := rfl

/-! ### `decryptChar` (R242) -/

@[simp] theorem decryptChar_din (s : State) : (decryptChar s).din = s.din := rfl
@[simp] theorem decryptChar_dout (s : State) :
    (decryptChar s).dout = #v[decryptValue s (joinBytes (xorBytes (bytes4 (codePoint s)) (cregLow s.creg))), 0, 0, 0] := rfl
@[simp] theorem decryptChar_diag (s : State) : (decryptChar s).diag = s.diag := rfl
@[simp] theorem decryptChar_ie (s : State) : (decryptChar s).ie = s.ie := rfl
@[simp] theorem decryptChar_init (s : State) : (decryptChar s).init = s.init := rfl
@[simp] theorem decryptChar_busy (s : State) : (decryptChar s).busy = s.busy := rfl
@[simp] theorem decryptChar_done (s : State) : (decryptChar s).done = s.done := rfl
@[simp] theorem decryptChar_err (s : State) : (decryptChar s).err = s.err := rfl
@[simp] theorem decryptChar_ovr (s : State) : (decryptChar s).ovr = s.ovr := rfl
@[simp] theorem decryptChar_mode (s : State) : (decryptChar s).mode = true := rfl
@[simp] theorem decryptChar_cst (s : State) : (decryptChar s).cst = true := rfl
@[simp] theorem decryptChar_bst (s : State) : (decryptChar s).bst = s.bst := rfl
@[simp] theorem decryptChar_keymask (s : State) : (decryptChar s).keymask = s.keymask := rfl
@[simp] theorem decryptChar_errcode (s : State) : (decryptChar s).errcode = s.errcode := rfl
@[simp] theorem decryptChar_key (s : State) : (decryptChar s).key = s.key := rfl
@[simp] theorem decryptChar_pending (s : State) : (decryptChar s).pending = s.pending := rfl
@[simp] theorem decryptChar_mkey (s : State) : (decryptChar s).mkey = s.mkey := rfl
@[simp] theorem decryptChar_pos (s : State) : (decryptChar s).pos = rotorStep s.ncnt s.notch s.pos := rfl
@[simp] theorem decryptChar_ncnt (s : State) : (decryptChar s).ncnt = s.ncnt := rfl
@[simp] theorem decryptChar_notch (s : State) : (decryptChar s).notch = s.notch := rfl
@[simp] theorem decryptChar_rfwd (s : State) : (decryptChar s).rfwd = s.rfwd := rfl
@[simp] theorem decryptChar_rinv (s : State) : (decryptChar s).rinv = s.rinv := rfl
@[simp] theorem decryptChar_plug (s : State) : (decryptChar s).plug = s.plug := rfl
@[simp] theorem decryptChar_sbox (s : State) : (decryptChar s).sbox = s.sbox := rfl
@[simp] theorem decryptChar_isbox (s : State) : (decryptChar s).isbox = s.isbox := rfl
@[simp] theorem decryptChar_creg (s : State) :
    (decryptChar s).creg = writeCregLow s.creg (bytes4 (codePoint s)) := rfl
@[simp] theorem decryptChar_breg (s : State) : (decryptChar s).breg = s.breg := rfl
@[simp] theorem decryptChar_inputs (s : State) : (decryptChar s).inputs = s.inputs := rfl
@[simp] theorem decryptChar_readData (s : State) : (decryptChar s).readData = s.readData := rfl
@[simp] theorem decryptChar_draws (s : State) : (decryptChar s).draws = s.draws := rfl
@[simp] theorem decryptChar_plugPairs (s : State) : (decryptChar s).plugPairs = s.plugPairs := rfl
@[simp] theorem decryptChar_sboxKeyOffset (s : State) : (decryptChar s).sboxKeyOffset = s.sboxKeyOffset := rfl

/-! ### `encryptBlock` (R246) -/

@[simp] theorem encryptBlock_din (s : State) : (encryptBlock s).din = s.din := rfl
@[simp] theorem encryptBlock_dout (s : State) :
    (encryptBlock s).dout = unblk (blockForward s.sbox s.mkey (xorBytes (blockOperand s) s.breg)) := rfl
@[simp] theorem encryptBlock_diag (s : State) : (encryptBlock s).diag = s.diag := rfl
@[simp] theorem encryptBlock_ie (s : State) : (encryptBlock s).ie = s.ie := rfl
@[simp] theorem encryptBlock_init (s : State) : (encryptBlock s).init = s.init := rfl
@[simp] theorem encryptBlock_busy (s : State) : (encryptBlock s).busy = s.busy := rfl
@[simp] theorem encryptBlock_done (s : State) : (encryptBlock s).done = s.done := rfl
@[simp] theorem encryptBlock_err (s : State) : (encryptBlock s).err = s.err := rfl
@[simp] theorem encryptBlock_ovr (s : State) : (encryptBlock s).ovr = s.ovr := rfl
@[simp] theorem encryptBlock_mode (s : State) : (encryptBlock s).mode = false := rfl
@[simp] theorem encryptBlock_cst (s : State) : (encryptBlock s).cst = s.cst := rfl
@[simp] theorem encryptBlock_bst (s : State) : (encryptBlock s).bst = true := rfl
@[simp] theorem encryptBlock_keymask (s : State) : (encryptBlock s).keymask = s.keymask := rfl
@[simp] theorem encryptBlock_errcode (s : State) : (encryptBlock s).errcode = s.errcode := rfl
@[simp] theorem encryptBlock_key (s : State) : (encryptBlock s).key = s.key := rfl
@[simp] theorem encryptBlock_pending (s : State) : (encryptBlock s).pending = s.pending := rfl
@[simp] theorem encryptBlock_mkey (s : State) : (encryptBlock s).mkey = s.mkey := rfl
@[simp] theorem encryptBlock_pos (s : State) : (encryptBlock s).pos = s.pos := rfl
@[simp] theorem encryptBlock_ncnt (s : State) : (encryptBlock s).ncnt = s.ncnt := rfl
@[simp] theorem encryptBlock_notch (s : State) : (encryptBlock s).notch = s.notch := rfl
@[simp] theorem encryptBlock_rfwd (s : State) : (encryptBlock s).rfwd = s.rfwd := rfl
@[simp] theorem encryptBlock_rinv (s : State) : (encryptBlock s).rinv = s.rinv := rfl
@[simp] theorem encryptBlock_plug (s : State) : (encryptBlock s).plug = s.plug := rfl
@[simp] theorem encryptBlock_sbox (s : State) : (encryptBlock s).sbox = s.sbox := rfl
@[simp] theorem encryptBlock_isbox (s : State) : (encryptBlock s).isbox = s.isbox := rfl
@[simp] theorem encryptBlock_creg (s : State) : (encryptBlock s).creg = s.creg := rfl
@[simp] theorem encryptBlock_breg (s : State) :
    (encryptBlock s).breg = blockForward s.sbox s.mkey (xorBytes (blockOperand s) s.breg) := rfl
@[simp] theorem encryptBlock_inputs (s : State) : (encryptBlock s).inputs = s.inputs := rfl
@[simp] theorem encryptBlock_readData (s : State) : (encryptBlock s).readData = s.readData := rfl
@[simp] theorem encryptBlock_draws (s : State) : (encryptBlock s).draws = s.draws := rfl
@[simp] theorem encryptBlock_plugPairs (s : State) : (encryptBlock s).plugPairs = s.plugPairs := rfl
@[simp] theorem encryptBlock_sboxKeyOffset (s : State) : (encryptBlock s).sboxKeyOffset = s.sboxKeyOffset := rfl

/-! ### `decryptBlock` (R247) -/

@[simp] theorem decryptBlock_din (s : State) : (decryptBlock s).din = s.din := rfl
@[simp] theorem decryptBlock_dout (s : State) :
    (decryptBlock s).dout = unblk (xorBytes (blockInverse s.isbox s.mkey (blockOperand s)) s.breg) := rfl
@[simp] theorem decryptBlock_diag (s : State) : (decryptBlock s).diag = s.diag := rfl
@[simp] theorem decryptBlock_ie (s : State) : (decryptBlock s).ie = s.ie := rfl
@[simp] theorem decryptBlock_init (s : State) : (decryptBlock s).init = s.init := rfl
@[simp] theorem decryptBlock_busy (s : State) : (decryptBlock s).busy = s.busy := rfl
@[simp] theorem decryptBlock_done (s : State) : (decryptBlock s).done = s.done := rfl
@[simp] theorem decryptBlock_err (s : State) : (decryptBlock s).err = s.err := rfl
@[simp] theorem decryptBlock_ovr (s : State) : (decryptBlock s).ovr = s.ovr := rfl
@[simp] theorem decryptBlock_mode (s : State) : (decryptBlock s).mode = true := rfl
@[simp] theorem decryptBlock_cst (s : State) : (decryptBlock s).cst = s.cst := rfl
@[simp] theorem decryptBlock_bst (s : State) : (decryptBlock s).bst = true := rfl
@[simp] theorem decryptBlock_keymask (s : State) : (decryptBlock s).keymask = s.keymask := rfl
@[simp] theorem decryptBlock_errcode (s : State) : (decryptBlock s).errcode = s.errcode := rfl
@[simp] theorem decryptBlock_key (s : State) : (decryptBlock s).key = s.key := rfl
@[simp] theorem decryptBlock_pending (s : State) : (decryptBlock s).pending = s.pending := rfl
@[simp] theorem decryptBlock_mkey (s : State) : (decryptBlock s).mkey = s.mkey := rfl
@[simp] theorem decryptBlock_pos (s : State) : (decryptBlock s).pos = s.pos := rfl
@[simp] theorem decryptBlock_ncnt (s : State) : (decryptBlock s).ncnt = s.ncnt := rfl
@[simp] theorem decryptBlock_notch (s : State) : (decryptBlock s).notch = s.notch := rfl
@[simp] theorem decryptBlock_rfwd (s : State) : (decryptBlock s).rfwd = s.rfwd := rfl
@[simp] theorem decryptBlock_rinv (s : State) : (decryptBlock s).rinv = s.rinv := rfl
@[simp] theorem decryptBlock_plug (s : State) : (decryptBlock s).plug = s.plug := rfl
@[simp] theorem decryptBlock_sbox (s : State) : (decryptBlock s).sbox = s.sbox := rfl
@[simp] theorem decryptBlock_isbox (s : State) : (decryptBlock s).isbox = s.isbox := rfl
@[simp] theorem decryptBlock_creg (s : State) : (decryptBlock s).creg = s.creg := rfl
@[simp] theorem decryptBlock_breg (s : State) : (decryptBlock s).breg = blockOperand s := rfl
@[simp] theorem decryptBlock_inputs (s : State) : (decryptBlock s).inputs = s.inputs := rfl
@[simp] theorem decryptBlock_readData (s : State) : (decryptBlock s).readData = s.readData := rfl
@[simp] theorem decryptBlock_draws (s : State) : (decryptBlock s).draws = s.draws := rfl
@[simp] theorem decryptBlock_plugPairs (s : State) : (decryptBlock s).plugPairs = s.plugPairs := rfl
@[simp] theorem decryptBlock_sboxKeyOffset (s : State) : (decryptBlock s).sboxKeyOffset = s.sboxKeyOffset := rfl

/-! ### `loadContext` (R271) -/

@[simp] theorem loadContext_din (k : Key) (s : State) : (loadContext k s).din = s.din := rfl
@[simp] theorem loadContext_dout (k : Key) (s : State) : (loadContext k s).dout = s.dout := rfl
@[simp] theorem loadContext_diag (k : Key) (s : State) : (loadContext k s).diag = s.diag := rfl
@[simp] theorem loadContext_ie (k : Key) (s : State) : (loadContext k s).ie = s.ie := rfl
@[simp] theorem loadContext_init (k : Key) (s : State) : (loadContext k s).init = true := rfl
@[simp] theorem loadContext_busy (k : Key) (s : State) : (loadContext k s).busy = s.busy := rfl
@[simp] theorem loadContext_done (k : Key) (s : State) : (loadContext k s).done = s.done := rfl
@[simp] theorem loadContext_err (k : Key) (s : State) : (loadContext k s).err = s.err := rfl
@[simp] theorem loadContext_ovr (k : Key) (s : State) : (loadContext k s).ovr = s.ovr := rfl
@[simp] theorem loadContext_mode (k : Key) (s : State) : (loadContext k s).mode = false := rfl
@[simp] theorem loadContext_cst (k : Key) (s : State) : (loadContext k s).cst = false := rfl
@[simp] theorem loadContext_bst (k : Key) (s : State) : (loadContext k s).bst = false := rfl
@[simp] theorem loadContext_keymask (k : Key) (s : State) : (loadContext k s).keymask = 0 := rfl
@[simp] theorem loadContext_errcode (k : Key) (s : State) : (loadContext k s).errcode = s.errcode := rfl
@[simp] theorem loadContext_key (k : Key) (s : State) : (loadContext k s).key = Vector.replicate 8 0 := rfl
@[simp] theorem loadContext_pending (k : Key) (s : State) : (loadContext k s).pending = s.pending := rfl
@[simp] theorem loadContext_mkey (k : Key) (s : State) : (loadContext k s).mkey = k := rfl
@[simp] theorem loadContext_pos (k : Key) (s : State) : (loadContext k s).pos = ksPositions k := rfl
@[simp] theorem loadContext_ncnt (k : Key) (s : State) : (loadContext k s).ncnt = ksNotchCounts k := rfl
@[simp] theorem loadContext_notch (k : Key) (s : State) : (loadContext k s).notch = ksNotchSlots k := rfl
@[simp] theorem loadContext_rfwd (k : Key) (s : State) : (loadContext k s).rfwd = ksForwardBank k := rfl
@[simp] theorem loadContext_rinv (k : Key) (s : State) : (loadContext k s).rinv = ksInverseBank k := rfl
@[simp] theorem loadContext_plug (k : Key) (s : State) : (loadContext k s).plug = ksPlug s.plugPairs k := rfl
@[simp] theorem loadContext_sbox (k : Key) (s : State) : (loadContext k s).sbox = ksSbox s.sboxKeyOffset k := rfl
@[simp] theorem loadContext_isbox (k : Key) (s : State) : (loadContext k s).isbox = ksIsbox s.sboxKeyOffset k := rfl
@[simp] theorem loadContext_creg (k : Key) (s : State) : (loadContext k s).creg = zeroBlock := rfl
@[simp] theorem loadContext_breg (k : Key) (s : State) : (loadContext k s).breg = zeroBlock := rfl
@[simp] theorem loadContext_inputs (k : Key) (s : State) : (loadContext k s).inputs = s.inputs := rfl
@[simp] theorem loadContext_readData (k : Key) (s : State) : (loadContext k s).readData = s.readData := rfl
@[simp] theorem loadContext_draws (k : Key) (s : State) : (loadContext k s).draws = s.draws := rfl
@[simp] theorem loadContext_plugPairs (k : Key) (s : State) : (loadContext k s).plugPairs = s.plugPairs := rfl
@[simp] theorem loadContext_sboxKeyOffset (k : Key) (s : State) :
    (loadContext k s).sboxKeyOffset = s.sboxKeyOffset := rfl

/-! ### `resetMessage` (R272) -/

@[simp] theorem resetMessage_din (s : State) : (resetMessage s).din = s.din := rfl
@[simp] theorem resetMessage_dout (s : State) : (resetMessage s).dout = s.dout := rfl
@[simp] theorem resetMessage_diag (s : State) : (resetMessage s).diag = s.diag := rfl
@[simp] theorem resetMessage_ie (s : State) : (resetMessage s).ie = s.ie := rfl
@[simp] theorem resetMessage_init (s : State) : (resetMessage s).init = s.init := rfl
@[simp] theorem resetMessage_busy (s : State) : (resetMessage s).busy = s.busy := rfl
@[simp] theorem resetMessage_done (s : State) : (resetMessage s).done = s.done := rfl
@[simp] theorem resetMessage_err (s : State) : (resetMessage s).err = s.err := rfl
@[simp] theorem resetMessage_ovr (s : State) : (resetMessage s).ovr = s.ovr := rfl
@[simp] theorem resetMessage_mode (s : State) : (resetMessage s).mode = s.mode := rfl
@[simp] theorem resetMessage_cst (s : State) : (resetMessage s).cst = false := rfl
@[simp] theorem resetMessage_bst (s : State) : (resetMessage s).bst = false := rfl
@[simp] theorem resetMessage_keymask (s : State) : (resetMessage s).keymask = s.keymask := rfl
@[simp] theorem resetMessage_errcode (s : State) : (resetMessage s).errcode = s.errcode := rfl
@[simp] theorem resetMessage_key (s : State) : (resetMessage s).key = s.key := rfl
@[simp] theorem resetMessage_pending (s : State) : (resetMessage s).pending = s.pending := rfl
@[simp] theorem resetMessage_mkey (s : State) : (resetMessage s).mkey = s.mkey := rfl
@[simp] theorem resetMessage_pos (s : State) : (resetMessage s).pos = ksPositions s.mkey := rfl
@[simp] theorem resetMessage_ncnt (s : State) : (resetMessage s).ncnt = s.ncnt := rfl
@[simp] theorem resetMessage_notch (s : State) : (resetMessage s).notch = s.notch := rfl
@[simp] theorem resetMessage_rfwd (s : State) : (resetMessage s).rfwd = s.rfwd := rfl
@[simp] theorem resetMessage_rinv (s : State) : (resetMessage s).rinv = s.rinv := rfl
@[simp] theorem resetMessage_plug (s : State) : (resetMessage s).plug = s.plug := rfl
@[simp] theorem resetMessage_sbox (s : State) : (resetMessage s).sbox = s.sbox := rfl
@[simp] theorem resetMessage_isbox (s : State) : (resetMessage s).isbox = s.isbox := rfl
@[simp] theorem resetMessage_creg (s : State) : (resetMessage s).creg = zeroBlock := rfl
@[simp] theorem resetMessage_breg (s : State) : (resetMessage s).breg = zeroBlock := rfl
@[simp] theorem resetMessage_inputs (s : State) : (resetMessage s).inputs = s.inputs := rfl
@[simp] theorem resetMessage_readData (s : State) : (resetMessage s).readData = s.readData := rfl
@[simp] theorem resetMessage_draws (s : State) : (resetMessage s).draws = s.draws := rfl
@[simp] theorem resetMessage_plugPairs (s : State) : (resetMessage s).plugPairs = s.plugPairs := rfl
@[simp] theorem resetMessage_sboxKeyOffset (s : State) : (resetMessage s).sboxKeyOffset = s.sboxKeyOffset := rfl

/-! ### `destroyContext` (R273) -/

@[simp] theorem destroyContext_din (s : State) : (destroyContext s).din = Vector.replicate 4 0 := rfl
@[simp] theorem destroyContext_dout (s : State) : (destroyContext s).dout = Vector.replicate 4 0 := rfl
@[simp] theorem destroyContext_diag (s : State) : (destroyContext s).diag = s.diag := rfl
@[simp] theorem destroyContext_ie (s : State) : (destroyContext s).ie = s.ie := rfl
@[simp] theorem destroyContext_init (s : State) : (destroyContext s).init = false := rfl
@[simp] theorem destroyContext_busy (s : State) : (destroyContext s).busy = s.busy := rfl
@[simp] theorem destroyContext_done (s : State) : (destroyContext s).done = s.done := rfl
@[simp] theorem destroyContext_err (s : State) : (destroyContext s).err = s.err := rfl
@[simp] theorem destroyContext_ovr (s : State) : (destroyContext s).ovr = s.ovr := rfl
@[simp] theorem destroyContext_mode (s : State) : (destroyContext s).mode = false := rfl
@[simp] theorem destroyContext_cst (s : State) : (destroyContext s).cst = false := rfl
@[simp] theorem destroyContext_bst (s : State) : (destroyContext s).bst = false := rfl
@[simp] theorem destroyContext_keymask (s : State) : (destroyContext s).keymask = 0 := rfl
@[simp] theorem destroyContext_errcode (s : State) : (destroyContext s).errcode = s.errcode := rfl
@[simp] theorem destroyContext_key (s : State) : (destroyContext s).key = Vector.replicate 8 0 := rfl
@[simp] theorem destroyContext_pending (s : State) : (destroyContext s).pending = s.pending := rfl
@[simp] theorem destroyContext_mkey (s : State) : (destroyContext s).mkey = Vector.replicate 32 0 := rfl
@[simp] theorem destroyContext_pos (s : State) : (destroyContext s).pos = Config.freePos s.draws := rfl
@[simp] theorem destroyContext_ncnt (s : State) : (destroyContext s).ncnt = Config.freeNcnt s.draws := rfl
@[simp] theorem destroyContext_notch (s : State) : (destroyContext s).notch = Config.freeNotch s.draws := rfl
@[simp] theorem destroyContext_rfwd (s : State) : (destroyContext s).rfwd = Config.freeRfwd s.draws := rfl
@[simp] theorem destroyContext_rinv (s : State) : (destroyContext s).rinv = Config.freeRinv s.draws := rfl
@[simp] theorem destroyContext_plug (s : State) : (destroyContext s).plug = Config.freePlug s.draws := rfl
@[simp] theorem destroyContext_sbox (s : State) : (destroyContext s).sbox = Config.freeSbox s.draws := rfl
@[simp] theorem destroyContext_isbox (s : State) : (destroyContext s).isbox = Config.freeIsbox s.draws := rfl
@[simp] theorem destroyContext_creg (s : State) : (destroyContext s).creg = zeroBlock := rfl
@[simp] theorem destroyContext_breg (s : State) : (destroyContext s).breg = zeroBlock := rfl
@[simp] theorem destroyContext_inputs (s : State) : (destroyContext s).inputs = s.inputs := rfl
@[simp] theorem destroyContext_readData (s : State) : (destroyContext s).readData = s.readData := rfl
@[simp] theorem destroyContext_draws (s : State) : (destroyContext s).draws = s.draws + 1 := rfl
@[simp] theorem destroyContext_plugPairs (s : State) : (destroyContext s).plugPairs = s.plugPairs := rfl
@[simp] theorem destroyContext_sboxKeyOffset (s : State) : (destroyContext s).sboxKeyOffset = s.sboxKeyOffset := rfl

/-! ### `hostRead` (R64) -/

@[simp] theorem hostRead_din (off : BitVec 8) (s : State) : (hostRead off s).din = s.din := rfl
@[simp] theorem hostRead_dout (off : BitVec 8) (s : State) : (hostRead off s).dout = s.dout := rfl
@[simp] theorem hostRead_diag (off : BitVec 8) (s : State) : (hostRead off s).diag = s.diag := rfl
@[simp] theorem hostRead_ie (off : BitVec 8) (s : State) : (hostRead off s).ie = s.ie := rfl
@[simp] theorem hostRead_init (off : BitVec 8) (s : State) : (hostRead off s).init = s.init := rfl
@[simp] theorem hostRead_busy (off : BitVec 8) (s : State) : (hostRead off s).busy = s.busy := rfl
@[simp] theorem hostRead_done (off : BitVec 8) (s : State) : (hostRead off s).done = s.done := rfl
@[simp] theorem hostRead_err (off : BitVec 8) (s : State) : (hostRead off s).err = s.err := rfl
@[simp] theorem hostRead_ovr (off : BitVec 8) (s : State) : (hostRead off s).ovr = s.ovr := rfl
@[simp] theorem hostRead_mode (off : BitVec 8) (s : State) : (hostRead off s).mode = s.mode := rfl
@[simp] theorem hostRead_cst (off : BitVec 8) (s : State) : (hostRead off s).cst = s.cst := rfl
@[simp] theorem hostRead_bst (off : BitVec 8) (s : State) : (hostRead off s).bst = s.bst := rfl
@[simp] theorem hostRead_keymask (off : BitVec 8) (s : State) : (hostRead off s).keymask = s.keymask := rfl
@[simp] theorem hostRead_errcode (off : BitVec 8) (s : State) : (hostRead off s).errcode = s.errcode := rfl
@[simp] theorem hostRead_key (off : BitVec 8) (s : State) : (hostRead off s).key = s.key := rfl
@[simp] theorem hostRead_pending (off : BitVec 8) (s : State) : (hostRead off s).pending = s.pending := rfl
@[simp] theorem hostRead_mkey (off : BitVec 8) (s : State) : (hostRead off s).mkey = s.mkey := rfl
@[simp] theorem hostRead_pos (off : BitVec 8) (s : State) : (hostRead off s).pos = s.pos := rfl
@[simp] theorem hostRead_ncnt (off : BitVec 8) (s : State) : (hostRead off s).ncnt = s.ncnt := rfl
@[simp] theorem hostRead_notch (off : BitVec 8) (s : State) : (hostRead off s).notch = s.notch := rfl
@[simp] theorem hostRead_rfwd (off : BitVec 8) (s : State) : (hostRead off s).rfwd = s.rfwd := rfl
@[simp] theorem hostRead_rinv (off : BitVec 8) (s : State) : (hostRead off s).rinv = s.rinv := rfl
@[simp] theorem hostRead_plug (off : BitVec 8) (s : State) : (hostRead off s).plug = s.plug := rfl
@[simp] theorem hostRead_sbox (off : BitVec 8) (s : State) : (hostRead off s).sbox = s.sbox := rfl
@[simp] theorem hostRead_isbox (off : BitVec 8) (s : State) : (hostRead off s).isbox = s.isbox := rfl
@[simp] theorem hostRead_creg (off : BitVec 8) (s : State) : (hostRead off s).creg = s.creg := rfl
@[simp] theorem hostRead_breg (off : BitVec 8) (s : State) : (hostRead off s).breg = s.breg := rfl
@[simp] theorem hostRead_inputs (off : BitVec 8) (s : State) : (hostRead off s).inputs = s.inputs := rfl
@[simp] theorem hostRead_readData (off : BitVec 8) (s : State) :
    (hostRead off s).readData = readValue (windowReg off) s := rfl
@[simp] theorem hostRead_draws (off : BitVec 8) (s : State) :
    (hostRead off s).draws = if readDraws (windowReg off) s then s.draws + 1 else s.draws := rfl
@[simp] theorem hostRead_plugPairs (off : BitVec 8) (s : State) : (hostRead off s).plugPairs = s.plugPairs := rfl
@[simp] theorem hostRead_sboxKeyOffset (off : BitVec 8) (s : State) :
    (hostRead off s).sboxKeyOffset = s.sboxKeyOffset := rfl

/-! ### `powerOn` (R340) -/

@[simp] theorem powerOn_din (s : State) : (powerOn s).din = State.reset.din := rfl
@[simp] theorem powerOn_dout (s : State) : (powerOn s).dout = State.reset.dout := rfl
@[simp] theorem powerOn_diag (s : State) : (powerOn s).diag = State.reset.diag := rfl
@[simp] theorem powerOn_ie (s : State) : (powerOn s).ie = State.reset.ie := rfl
@[simp] theorem powerOn_init (s : State) : (powerOn s).init = State.reset.init := rfl
@[simp] theorem powerOn_busy (s : State) : (powerOn s).busy = State.reset.busy := rfl
@[simp] theorem powerOn_done (s : State) : (powerOn s).done = State.reset.done := rfl
@[simp] theorem powerOn_err (s : State) : (powerOn s).err = State.reset.err := rfl
@[simp] theorem powerOn_ovr (s : State) : (powerOn s).ovr = State.reset.ovr := rfl
@[simp] theorem powerOn_mode (s : State) : (powerOn s).mode = State.reset.mode := rfl
@[simp] theorem powerOn_cst (s : State) : (powerOn s).cst = State.reset.cst := rfl
@[simp] theorem powerOn_bst (s : State) : (powerOn s).bst = State.reset.bst := rfl
@[simp] theorem powerOn_keymask (s : State) : (powerOn s).keymask = State.reset.keymask := rfl
@[simp] theorem powerOn_errcode (s : State) : (powerOn s).errcode = State.reset.errcode := rfl
@[simp] theorem powerOn_key (s : State) : (powerOn s).key = State.reset.key := rfl
@[simp] theorem powerOn_pending (s : State) : (powerOn s).pending = State.reset.pending := rfl
@[simp] theorem powerOn_mkey (s : State) : (powerOn s).mkey = State.reset.mkey := rfl
@[simp] theorem powerOn_pos (s : State) : (powerOn s).pos = State.reset.pos := rfl
@[simp] theorem powerOn_ncnt (s : State) : (powerOn s).ncnt = State.reset.ncnt := rfl
@[simp] theorem powerOn_notch (s : State) : (powerOn s).notch = State.reset.notch := rfl
@[simp] theorem powerOn_rfwd (s : State) : (powerOn s).rfwd = State.reset.rfwd := rfl
@[simp] theorem powerOn_rinv (s : State) : (powerOn s).rinv = State.reset.rinv := rfl
@[simp] theorem powerOn_plug (s : State) : (powerOn s).plug = State.reset.plug := rfl
@[simp] theorem powerOn_sbox (s : State) : (powerOn s).sbox = State.reset.sbox := rfl
@[simp] theorem powerOn_isbox (s : State) : (powerOn s).isbox = State.reset.isbox := rfl
@[simp] theorem powerOn_creg (s : State) : (powerOn s).creg = State.reset.creg := rfl
@[simp] theorem powerOn_breg (s : State) : (powerOn s).breg = State.reset.breg := rfl
@[simp] theorem powerOn_inputs (s : State) : (powerOn s).inputs = s.inputs := rfl
@[simp] theorem powerOn_readData (s : State) : (powerOn s).readData = s.readData := rfl
@[simp] theorem powerOn_draws (s : State) : (powerOn s).draws = s.draws := rfl
@[simp] theorem powerOn_plugPairs (s : State) : (powerOn s).plugPairs = s.plugPairs := rfl
@[simp] theorem powerOn_sboxKeyOffset (s : State) : (powerOn s).sboxKeyOffset = s.sboxKeyOffset := rfl

end Sys2Proof.Laws
end

