-- ==== Sys2Proof/Laws/Ops.lean ====
section
/-! SUPPORT. What the shared operations can do, said once each: the checks of R308, the completion of a command (R312),
the error entry (R309). -/

namespace Sys2Proof.Laws

open Sys2Proof.Machine

/-! ### The checks -/

/-- No check fails exactly when none of the four conditions of R308 after decoding holds. -/
theorem check_eq_none_iff (i : Instr) (s : State) :
    check i s = none ↔ (isDiagnostic i = true → s.diag = true) ∧ (i ≠ .init → s.init = true) ∧
      badOperand i (codePoint s) = false ∧ (i = .init → s.keymask = 0xFF) := by
  unfold check
  by_cases h1 : isDiagnostic i = true <;> by_cases h2 : i = .init <;> cases h3 : s.diag <;> cases h4 : s.init <;>
    cases h5 : badOperand i (codePoint s) <;> simp_all

/-- The error a check reports is one of the four it tests for, in the order of R308. -/
theorem check_eq_some_iff (i : Instr) (s : State) (e : Err) :
    check i s = some e ↔
      (e = .diagDisabled ∧ isDiagnostic i = true ∧ s.diag = false) ∨
      (e = .notInitialized ∧ ¬(isDiagnostic i = true ∧ s.diag = false) ∧ i ≠ .init ∧ s.init = false) ∨
      (e = .badOperand ∧ ¬(isDiagnostic i = true ∧ s.diag = false) ∧ ¬(i ≠ .init ∧ s.init = false) ∧
        badOperand i (codePoint s) = true) ∨
      (e = .invalidKeyLength ∧ ¬(isDiagnostic i = true ∧ s.diag = false) ∧ ¬(i ≠ .init ∧ s.init = false) ∧
        badOperand i (codePoint s) = false ∧ i = .init ∧ s.keymask ≠ 0xFF) := by
  unfold check
  split_ifs with h1 h2 h3 h4 <;> cases e <;> simp_all

/-! ### Completion -/

/-- Every error code is nonzero (R300). -/
theorem errCode_ne_zero (e : Err) : e.code ≠ 0#4 := by cases e <;> decide

/-- Taking an error sets `ERR` (R313). -/
theorem fail_err_eq_true (e : Err) (s : State) : (fail e s).err = true := by simp [errCode_ne_zero]

/-- A success keeps `ERR` (R29, R313). -/
theorem succeed_err_eq (s : State) : (succeed s).err = s.err := by simp

/-- Taking an error, as one update (R309). -/
theorem fail_eq (e : Err) (s : State) :
    fail e s = { s with errcode := e.code, err := true, done := true, busy := false } := by
  simp [fail, complete, errCode_ne_zero]

/-- A successful completion, as one update (R313). -/
theorem succeed_eq (s : State) : succeed s = { s with errcode := 0, done := true, busy := false } := by
  simp [succeed, complete]

/-- All a command can do: fail with the error of the first check that fails, or have its effect and succeed (R312). -/
theorem command_cases {i : Instr} {f : State → State} {s t : State} (h : command i f s = .next t) :
    (∃ e, check i s = some e ∧ t = fail e s) ∨ (check i s = none ∧ t = succeed (f s)) := by
  unfold command at h
  split at h
  · exact .inl ⟨_, ‹_›, (Host.Outcome.next.inj h).symm⟩
  · exact .inr ⟨‹_›, (Host.Outcome.next.inj h).symm⟩

theorem command_of_none {i : Instr} {s : State} (f : State → State) (h : check i s = none) :
    command i f s = .next (succeed (f s)) := by simp [command, h]

theorem command_of_some {i : Instr} {s : State} {e : Err} (f : State → State) (h : check i s = some e) :
    command i f s = .next (fail e s) := by simp [command, h]

/-- The frame of a command's completion: a field that the effect keeps and the completion status is no part of. -/
theorem command_keeps {β : Type} {i : Instr} {f : State → State} {s t : State} (g : State → β)
    (hg : ∀ e u, g (complete e u) = g u) (hf : g (f s) = g s) (h : command i f s = .next t) : g t = g s := by
  rcases command_cases h with ⟨e, -, rfl⟩ | ⟨-, rfl⟩
  · exact hg _ _
  · exact (hg _ _).trans hf

/-- The effect of a command, the function its meaning gives to `command`. -/
def effectOf (i : Instr) : State → State :=
  match i with
  | .init => initContext
  | .msgrst => resetMessage
  | .teardown => destroyContext
  | .cenc => encryptChar
  | .cdec => decryptChar
  | .benc => encryptBlock
  | .bdec => decryptBlock
  | .pbApply => fun s => writeValue (plugApply s.plug (codePoint s)) s
  | .rotFwd => fun s => writeValue (s.forward (codePoint s)) s
  | .rotBwd => fun s => writeValue (s.backward (codePoint s)) s
  | .rotStep => fun s => s.stepRotors
  | .btFwd => fun s => transform (blockForward s.sbox s.mkey) s
  | .btInv => fun s => transform (blockInverse s.isbox s.mkey) s
  | .btSub => fun s => transform (subBytes s.sbox) s
  | .btShr => fun s => transform shiftRows s
  | .btMix => fun s => transform mixColumns s
  | .btArk => fun s => transform (addRoundKey s.mkey) s
  | .btIsub => fun s => transform (invSubBytes s.isbox) s
  | .btIshr => fun s => transform invShiftRows s
  | .btImix => fun s => transform invMixColumns s
  | .rdPos sel => fun s => writeValue ((nth s.pos sel).setWidth 32) s
  | .wrPos sel => fun s => { s with pos := upd s.pos sel ((codePoint s).setWidth 16) }
  | .rdNotch sel n => fun s => writePair ((nth (nth s.notch sel) n).setWidth 32) ((nth s.ncnt sel).setWidth 32) s
  | .wrNotch sel n => fun s =>
    { s with notch := upd s.notch sel (upd (nth s.notch sel) n ((codePoint s).setWidth 16)) }
  | .wrNcnt sel => fun s => { s with ncnt := upd s.ncnt sel ((codePoint s).setWidth 3) }
  | .rdRfwd sel idx => fun s => writeValue ((Table.at (nth s.rfwd sel) (tableIndex idx)).setWidth 32) s
  | .rdRinv sel idx => fun s => writeValue ((Table.at (nth s.rinv sel) (tableIndex idx)).setWidth 32) s
  | .rdPlug idx => fun s => writeValue ((Table.at s.plug (tableIndex idx)).setWidth 32) s
  | .rdSbox idx => fun s => writeValue ((ByteTable.at s.sbox (sboxIndex idx)).setWidth 32) s
  | .rdIsbox idx => fun s => writeValue ((ByteTable.at s.isbox (sboxIndex idx)).setWidth 32) s
  | .rdRkey sel => fun s => writeBlock (roundKey s.mkey sel) s
  | .rdCreg => fun s => writeBlock s.creg s
  | .rdBreg => fun s => writeBlock s.breg s

/-- Every meaning is the completion of its own command with its own effect (R312). -/
theorem exec_eq_command (i : Instr) (s : State) : exec i s = command i (effectOf i) s := by
  cases i <;> rfl

/-- All that `exec` can do (R312). -/
theorem exec_cases {i : Instr} {s t : State} (h : exec i s = .next t) :
    (∃ e, check i s = some e ∧ t = fail e s) ∨ (check i s = none ∧ t = succeed (effectOf i s)) :=
  command_cases (exec_eq_command i s ▸ h)

end Sys2Proof.Laws
end

