-- ==== Sys2Proof/Laws/PerInstr.lean ====
section
/-! SUPPORT. One lemma per command of the family EncodesFields: the fields of its word are its opcode and its operands,
with bit 15 zero (30_encoding R90, R104). -/

namespace Sys2Proof.Laws.EncodesFields

/-- The word of a well-formed command holds its opcode, its operands and a zero bit 15 (R90, R104). -/
def Statement (i : Instr) : Prop :=
  wellFormed i = true →
    opField (encode i) = opcode i ∧ selField (encode i) = selOperand i ∧ nField (encode i) = nOperand i ∧
      rsvField (encode i) = 0 ∧ idxField (encode i) = idxOperand i

theorem init : Statement .init := fun _ =>
  assembled_fields (o := 0x01) (a := 0) (b := 0) (c := 0) (by omega)
    (by omega) (by omega) (by omega)

theorem msgrst : Statement .msgrst := fun _ =>
  assembled_fields (o := 0x02) (a := 0) (b := 0) (c := 0) (by omega)
    (by omega) (by omega) (by omega)

theorem teardown : Statement .teardown := fun _ =>
  assembled_fields (o := 0x03) (a := 0) (b := 0) (c := 0) (by omega)
    (by omega) (by omega) (by omega)

theorem cenc : Statement .cenc := fun _ =>
  assembled_fields (o := 0x10) (a := 0) (b := 0) (c := 0) (by omega)
    (by omega) (by omega) (by omega)

theorem cdec : Statement .cdec := fun _ =>
  assembled_fields (o := 0x11) (a := 0) (b := 0) (c := 0) (by omega)
    (by omega) (by omega) (by omega)

theorem benc : Statement .benc := fun _ =>
  assembled_fields (o := 0x18) (a := 0) (b := 0) (c := 0) (by omega)
    (by omega) (by omega) (by omega)

theorem bdec : Statement .bdec := fun _ =>
  assembled_fields (o := 0x19) (a := 0) (b := 0) (c := 0) (by omega)
    (by omega) (by omega) (by omega)

theorem pbApply : Statement .pbApply := fun _ =>
  assembled_fields (o := 0x20) (a := 0) (b := 0) (c := 0) (by omega)
    (by omega) (by omega) (by omega)

theorem rotFwd : Statement .rotFwd := fun _ =>
  assembled_fields (o := 0x21) (a := 0) (b := 0) (c := 0) (by omega)
    (by omega) (by omega) (by omega)

theorem rotBwd : Statement .rotBwd := fun _ =>
  assembled_fields (o := 0x22) (a := 0) (b := 0) (c := 0) (by omega)
    (by omega) (by omega) (by omega)

theorem rotStep : Statement .rotStep := fun _ =>
  assembled_fields (o := 0x23) (a := 0) (b := 0) (c := 0) (by omega)
    (by omega) (by omega) (by omega)

theorem btFwd : Statement .btFwd := fun _ =>
  assembled_fields (o := 0x24) (a := 0) (b := 0) (c := 0) (by omega)
    (by omega) (by omega) (by omega)

theorem btInv : Statement .btInv := fun _ =>
  assembled_fields (o := 0x25) (a := 0) (b := 0) (c := 0) (by omega)
    (by omega) (by omega) (by omega)

theorem btSub : Statement .btSub := fun _ =>
  assembled_fields (o := 0x26) (a := 0) (b := 0) (c := 0) (by omega)
    (by omega) (by omega) (by omega)

theorem btShr : Statement .btShr := fun _ =>
  assembled_fields (o := 0x27) (a := 0) (b := 0) (c := 0) (by omega)
    (by omega) (by omega) (by omega)

theorem btMix : Statement .btMix := fun _ =>
  assembled_fields (o := 0x28) (a := 0) (b := 0) (c := 0) (by omega)
    (by omega) (by omega) (by omega)

theorem btArk : Statement .btArk := fun _ =>
  assembled_fields (o := 0x29) (a := 0) (b := 0) (c := 0) (by omega)
    (by omega) (by omega) (by omega)

theorem btIsub : Statement .btIsub := fun _ =>
  assembled_fields (o := 0x2A) (a := 0) (b := 0) (c := 0) (by omega)
    (by omega) (by omega) (by omega)

theorem btIshr : Statement .btIshr := fun _ =>
  assembled_fields (o := 0x2B) (a := 0) (b := 0) (c := 0) (by omega)
    (by omega) (by omega) (by omega)

theorem btImix : Statement .btImix := fun _ =>
  assembled_fields (o := 0x2C) (a := 0) (b := 0) (c := 0) (by omega)
    (by omega) (by omega) (by omega)

theorem rdPos (sel : Nat) : Statement (.rdPos sel) := fun h =>
  assembled_fields (o := 0x30) (a := sel) (b := 0) (c := 0) (by omega)
    (by simpa [wellFormed] using h) (by omega) (by omega)

theorem wrPos (sel : Nat) : Statement (.wrPos sel) := fun h =>
  assembled_fields (o := 0x31) (a := sel) (b := 0) (c := 0) (by omega)
    (by simpa [wellFormed] using h) (by omega) (by omega)

theorem rdNotch (sel : Nat) (n : Nat) : Statement (.rdNotch sel n) := fun h =>
  assembled_fields (o := 0x32) (a := sel) (b := n) (c := 0) (by omega)
    (by simp [wellFormed] at h; exact h.1) (by simp [wellFormed] at h; exact h.2) (by omega)

theorem wrNotch (sel : Nat) (n : Nat) : Statement (.wrNotch sel n) := fun h =>
  assembled_fields (o := 0x33) (a := sel) (b := n) (c := 0) (by omega)
    (by simp [wellFormed] at h; exact h.1) (by simp [wellFormed] at h; exact h.2) (by omega)

theorem wrNcnt (sel : Nat) : Statement (.wrNcnt sel) := fun h =>
  assembled_fields (o := 0x34) (a := sel) (b := 0) (c := 0) (by omega)
    (by simpa [wellFormed] using h) (by omega) (by omega)

theorem rdRfwd (sel : Nat) (idx : Nat) : Statement (.rdRfwd sel idx) := fun h =>
  assembled_fields (o := 0x38) (a := sel) (b := 0) (c := idx) (by omega)
    (by simp [wellFormed] at h; exact h.1) (by omega) (by simp [wellFormed] at h; exact h.2)

theorem rdRinv (sel : Nat) (idx : Nat) : Statement (.rdRinv sel idx) := fun h =>
  assembled_fields (o := 0x39) (a := sel) (b := 0) (c := idx) (by omega)
    (by simp [wellFormed] at h; exact h.1) (by omega) (by simp [wellFormed] at h; exact h.2)

theorem rdPlug (idx : Nat) : Statement (.rdPlug idx) := fun h =>
  assembled_fields (o := 0x3A) (a := 0) (b := 0) (c := idx) (by omega)
    (by omega) (by omega) (by simpa [wellFormed] using h)

theorem rdSbox (idx : Nat) : Statement (.rdSbox idx) := fun h =>
  assembled_fields (o := 0x3B) (a := 0) (b := 0) (c := idx) (by omega)
    (by omega) (by omega) (by simpa [wellFormed] using h)

theorem rdIsbox (idx : Nat) : Statement (.rdIsbox idx) := fun h =>
  assembled_fields (o := 0x3C) (a := 0) (b := 0) (c := idx) (by omega)
    (by omega) (by omega) (by simpa [wellFormed] using h)

theorem rdRkey (sel : Nat) : Statement (.rdRkey sel) := fun h =>
  assembled_fields (o := 0x3D) (a := sel) (b := 0) (c := 0) (by omega)
    (by simpa [wellFormed] using h) (by omega) (by omega)

theorem rdCreg : Statement .rdCreg := fun _ =>
  assembled_fields (o := 0x3E) (a := 0) (b := 0) (c := 0) (by omega)
    (by omega) (by omega) (by omega)

theorem rdBreg : Statement .rdBreg := fun _ =>
  assembled_fields (o := 0x3F) (a := 0) (b := 0) (c := 0) (by omega)
    (by omega) (by omega) (by omega)

end Sys2Proof.Laws.EncodesFields
end

