-- ==== Sys2Proof/Laws/Step.lean ====
section
/-! SUPPORT. What one step can do (20_memory R80, 60_exceptions R312). -/

namespace Sys2Proof.Laws

open Sys2Proof.Machine

theorem step_write {s : State} {off : BitVec 8} {v : Word} {rest : List Input} (h : s.inputs = .write off v :: rest) :
    step s = .next (hostWrite off v { s with inputs := rest }) := by simp [step, h]

theorem step_read {s : State} {off : BitVec 8} {rest : List Input} (h : s.inputs = .read off :: rest) :
    step s = .next (hostRead off { s with inputs := rest }) := by simp [step, h]

theorem step_reset {s : State} {rest : List Input} (h : s.inputs = .powerOnReset :: rest) :
    step s = .next (powerOn { s with inputs := rest }) := by simp [step, h]

theorem step_engine {s : State} {rest : List Input} (h : s.inputs = .engine :: rest) :
    step s = engineTurn { s with inputs := rest } := by simp [step, h]

theorem step_drained {s : State} (h : s.inputs = []) : step s = engineTurn s := by simp [step, h]

/-- All the engine's turn can do: wait while idle, report an illegal word, or complete the decoded command (R312). -/
theorem engineTurn_cases {s t : State} (h : engineTurn s = .next t) :
    (s.busy = false ∧ t = s) ∨
    (s.busy = true ∧ decode s.pending = none ∧ t = fail .illegalCommand s) ∨
    (s.busy = true ∧ ∃ i, decode s.pending = some i ∧ exec i s = .next t) := by
  unfold engineTurn completion fetchCommand at h
  cases hb : s.busy <;> simp only [hb, Bool.false_eq_true, if_false, if_true] at h
  · exact .inl ⟨rfl, (Host.Outcome.next.inj h).symm⟩
  · cases hd : decode s.pending with
    | none => exact .inr (.inl ⟨rfl, rfl, by rw [hd] at h; exact (Host.Outcome.next.inj h).symm⟩)
    | some i => exact .inr (.inr ⟨rfl, i, rfl, by rw [hd] at h; exact h⟩)

/-- The state the engine's turn or an access starts from: the schedule's head is used up. -/
def dropInput (s : State) : State := { s with inputs := s.inputs.tail }

/-- All one step can do: a host write, a host read, a reset, or the engine's turn, each on the state without the
schedule's head (R80). -/
theorem step_cases {s t : State} (h : step s = .next t) :
    (∃ off v, t = hostWrite off v (dropInput s)) ∨ (∃ off, t = hostRead off (dropInput s)) ∨
    t = powerOn (dropInput s) ∨ engineTurn (dropInput s) = .next t := by
  cases hi : s.inputs with
  | nil =>
    have hs : dropInput s = s := by
      rcases s with ⟨⟩
      simp_all [dropInput]
    rw [step_drained hi] at h
    exact .inr (.inr (.inr (hs.symm ▸ h)))
  | cons x rest =>
    have hs : dropInput s = { s with inputs := rest } := by simp [dropInput, hi]
    rw [hs]
    cases x with
    | write off v => exact .inl ⟨off, v, (Host.Outcome.next.inj (step_write hi ▸ h)).symm⟩
    | read off => exact .inr (.inl ⟨off, (Host.Outcome.next.inj (step_read hi ▸ h)).symm⟩)
    | engine => exact .inr (.inr (.inr (step_engine hi ▸ h)))
    | powerOnReset => exact .inr (.inr (.inl (Host.Outcome.next.inj (step_reset hi ▸ h)).symm))

/-- All a host write can do: set `OVR` while busy, or write one register while idle (R65 to R71). -/
theorem hostWrite_cases (off : BitVec 8) (v : Word) (s : State) :
    (s.busy = true ∧ hostWrite off v s = { s with ovr := true }) ∨
    (s.busy = false ∧ hostWrite off v s = writeIdle (windowReg off) v s) := by
  cases h : s.busy <;> simp [hostWrite, h]

/-- No step is a run of no steps. -/
theorem runsTo_zero (s : State) : Safety.RunsTo 0 s s := rfl

/-- A step that answers a next state, and a run from there, is a run. -/
theorem runsTo_succ {k : Nat} {s u t : State} (h : step s = .next u) (ht : Safety.RunsTo k u t) :
    Safety.RunsTo (k + 1) s t := by
  have hc : core.step s = .next u := h
  simp only [Safety.RunsTo, Host.Core.run, hc]
  exact ht

/-- The register map by word offset (R61, R62). -/
theorem windowReg_of_div {off : BitVec 8} {q : Nat} (h : off.toNat / 4 = q) :
    windowReg off = windowReg (BitVec.ofNat 8 (4 * q)) := by
  have hq : (BitVec.ofNat 8 (4 * q)).toNat / 4 = q := by
    have := off.isLt
    simp only [BitVec.toNat_ofNat]
    omega
  unfold windowReg
  rw [h, hq]

end Sys2Proof.Laws
end

