-- ==== Sys2Proof/Laws/Units.lean ====
section
/-! SUPPORT. What the units' operations can do, said once each: the plugboard and the rotor passes inside and outside the
BMP (41, 42), the low bytes of `CREG` (44), the block steps byte by byte (43), and when a meaning succeeds (60). -/

namespace Sys2Proof.Laws

open Sys2Proof.Machine

/-! ### Success -/

/-- With no failing check, a meaning is its effect and the status of a success (R312, R313). -/
theorem exec_of_check {i : Instr} {s : State} (h : check i s = none) : exec i s = .next (succeed (effectOf i s)) := by
  rw [exec_eq_command, command_of_none _ h]

/-- A context or unit command in an initialized context passes every check (R308). -/
theorem check_initialized {i : Instr} {s : State} (hi : s.init = true) (h : isDiagnostic i = false) (h0 : i ≠ .init) :
    check i s = none := by
  rw [check_eq_none_iff]
  cases i <;> simp_all [isDiagnostic, badOperand]

/-- A diagnostic command in range, enabled and initialized, passes every check (R308). -/
theorem check_enabled {i : Instr} {s : State} (hd : s.diag = true) (hi : s.init = true) (h0 : i ≠ .init)
    (hb : badOperand i (nth s.din 0) = false) : check i s = none := by
  rw [check_eq_none_iff]
  simp [hd, hi, h0, codePoint, hb]

/-! ### Code points -/

theorem bmp_of_lt {v : Word} (h : v.toNat < 65536) : bmp v = true := by simp [bmp, h]

theorem bmp_of_le {v : Word} (h : 65536 ≤ v.toNat) : bmp v = false := by
  simp only [bmp, decide_eq_false_iff_not]
  omega

theorem plugApply_of_lt (plug : Table) {v : Word} (h : v.toNat < 65536) :
    plugApply plug v = (nth plug v.toNat).setWidth 32 := by
  simp [plugApply, bmp_of_lt h, tableAt_eq_nth, Nat.mod_eq_of_lt h]

theorem plugApply_of_le (plug : Table) {v : Word} (h : 65536 ≤ v.toNat) : plugApply plug v = v := by
  simp [plugApply, bmp_of_le h]

theorem rotorForward_of_le (rfwd : Bank) (pos : Positions) {v : Word} (h : 65536 ≤ v.toNat) :
    rotorForward rfwd pos v = v := by
  simp [rotorForward, bmp_of_le h]

theorem rotorBackward_of_le (rinv : Bank) (pos : Positions) {v : Word} (h : 65536 ≤ v.toNat) :
    rotorBackward rinv pos v = v := by
  simp [rotorBackward, bmp_of_le h]

/-- One rotor's value as a number, forward and backward: enter at the position, leave at it (R150, R151). -/
theorem enterLeave_toNat (t : Table) (p v : Half) :
    (Table.at t (v + p) - p).toNat = ((nth t ((v.toNat + p.toNat) % 65536)).toNat + 65536 - p.toNat) % 65536 := by
  rw [tableAt_eq_nth, BitVec.toNat_sub, BitVec.toNat_add, show 2 ^ 16 = 65536 from rfl]
  have := p.isLt
  omega

/-! ### Chaining -/

/-- The feedback XOR of a character unit, as words (R241, R243). -/
theorem joinBytes_xor_cregLow (v : Word) (c : Block) :
    joinBytes (xorBytes (bytes4 v) (cregLow c)) = v ^^^ Safety.cregWord c := by
  rw [← word4_byteOf v, Safety.cregWord, ← word4_xor]
  simp [joinBytes, xorBytes, bytes4, cregLow, word4_byteOf]

theorem nth_writeCregLow (c : Block) (o : Vector Byte 4) {i : Nat} (hi : i < 16) :
    nth (writeCregLow c o) i = if i < 4 then nth o i else nth c i := by
  rw [writeCregLow, nth_ofFn _ hi]
  simp only [nth_of_lt _ hi]
  rfl

theorem byteOf_joinBytes (o : Vector Byte 4) {k : Nat} (hk : k < 4) : byteOf (joinBytes o) k = nth o k := by
  rw [joinBytes, byteOf_word4 _ _ _ _ hk, nth_of_lt _ hk]
  match k, hk with
  | 0, _ | 1, _ | 2, _ | 3, _ => rfl

/-! ### Block steps, byte by byte -/

theorem nth_subBytes (sbox : ByteTable) (b : Block) {i : Nat} (hi : i < 16) :
    nth (subBytes sbox b) i = ByteTable.at sbox (nth b i) := by
  rw [subBytes, nth_ofFn _ hi, nth_of_lt _ hi]
  rfl

theorem nth_invSubBytes (isbox : ByteTable) (b : Block) {i : Nat} (hi : i < 16) :
    nth (invSubBytes isbox b) i = ByteTable.at isbox (nth b i) := by
  rw [invSubBytes, nth_ofFn _ hi, nth_of_lt _ hi]
  rfl

theorem nth_addRoundKey (k : Key) (b : Block) {i : Nat} (hi : i < 16) :
    nth (addRoundKey k b) i = nth b i ^^^ roundKeyByte k 0 i := by
  rw [addRoundKey, nth_ofFn _ hi, nth_of_lt _ hi]
  rfl

theorem rowByte_ofRows (f : Nat → Nat → Byte) {q j : Nat} (hq : q < 4) (hj : j < 4) : rowByte (ofRows f) q j = f q j :=
  nth_ofRows f hq hj

theorem rowByte_shiftRows (b : Block) {q j : Nat} (hq : q < 4) (hj : j < 4) :
    rowByte (shiftRows b) q j = rowByte b q ((j + q) % 4) := rowByte_ofRows _ hq hj

theorem rowByte_invShiftRows (b : Block) {q j : Nat} (hq : q < 4) (hj : j < 4) :
    rowByte (invShiftRows b) q j = rowByte b q ((j + 4 - q) % 4) := rowByte_ofRows _ hq hj

theorem rowByte_mixColumns (b : Block) {q j : Nat} (hq : q < 4) (hj : j < 4) :
    rowByte (mixColumns b) q j = rowByte b q j ^^^ rowByte b q ((j + 1) % 4) := rowByte_ofRows _ hq hj

theorem rowByte_invMixColumns (b : Block) {q j : Nat} (hq : q < 4) (hj : j < 4) :
    rowByte (invMixColumns b) q j = rowByte b q ((j + 3) % 4) ^^^ rowByte b q j := rowByte_ofRows _ hq hj

/-- Two blocks with equal rows are equal (R200). -/
theorem row_ext {b c : Block} (h : ∀ q < 4, ∀ j < 4, rowByte b q j = rowByte c q j) : b = c := by
  refine nth_ext fun i hi => ?_
  have := h (i / 4) (by omega) (i % 4) (by omega)
  rwa [rowByte, rowByte, show 4 * (i / 4) + i % 4 = i by omega] at this

end Sys2Proof.Laws
end

