-- ==== Sys2Proof/Tests/Slice0.lean ====
section
/-! SUPPORT. The model's own tests: expected values are the spec's (95_test_vectors, 30_encoding), never the model's own
answers. Each is one step on a small state. Witnesses of the statements' hypotheses follow at the end. -/

namespace Sys2Proof.Tests

open Sys2Proof.Machine Sys2Proof.Safety Sys2Proof.Laws

/-! ### Helper states -/

/-- The state a step answers, if it answers one. -/
def result (o : Host.Outcome State Fault Refusal) : Option State :=
  match o with
  | .next t => some t
  | .fault _ => none
  | .refused _ => none

/-- The four result words a meaning leaves, and its error code. -/
def doutOf (o : Host.Outcome State Fault Refusal) : Option (Vector Word 4 × BitVec 4) :=
  (result o).map fun t => (t.dout, t.errcode)

/-- `m` successive entries counting up from `x`, built lazily. -/
def countFrom (w : Nat) : Nat → Nat → List (BitVec w)
  | 0, _ => []
  | m + 1, x => BitVec.ofNat w x :: countFrom w m (x + 1)

theorem length_countFrom (w : Nat) : ∀ m x, (countFrom w m x).length = m
  | 0, _ => rfl
  | m + 1, x => congrArg (· + 1) (length_countFrom w m (x + 1))

/-- The table `T[x] = x + c`. -/
def shifted (w n c : Nat) : Vector (BitVec w) n := ⟨⟨countFrom w n c⟩, length_countFrom w n c⟩

theorem getElem_countFrom (w : Nat) : ∀ (m x i : Nat) (h : i < (countFrom w m x).length),
    (countFrom w m x)[i] = BitVec.ofNat w (x + i)
  | 0, _, _, h => absurd h (Nat.not_lt_zero _)
  | _ + 1, _, 0, _ => rfl
  | m + 1, x, i + 1, h => by
    have := getElem_countFrom w m (x + 1) i (Nat.lt_of_succ_lt_succ h)
    rw [show x + (i + 1) = x + 1 + i by omega]
    exact this

theorem getElem_shifted (w n c i : Nat) (h : i < n) : (shifted w n c)[i] = BitVec.ofNat w (c + i) :=
  getElem_countFrom w n c i _

theorem byteTableAt_shifted (c : Nat) (x : Byte) :
    ByteTable.at (shifted 8 256 c) x = BitVec.ofNat 8 (c + x.toNat) := by
  rw [ByteTable.at, getElem_shifted]

/-- Enabled and initialized with the tables of the all-zero key `Z` (R136), at the start of a message. -/
def zeroKeyed : State :=
  { State.reset with
    diag := true
    init := true
    rfwd := Vector.replicate 8 (shifted 16 65536 1)
    rinv := Vector.replicate 8 (shifted 16 65536 65535)
    plug := shifted 16 65536 0
    sbox := shifted 8 256 1
    isbox := shifted 8 256 255 }

/-- The key `K1`, `K[j] = j`. -/
def keyOne : Key := shifted 8 32 0

/-- The block `B0`, bytes 0 to 15, as four words. -/
def blockZero : Vector Word 4 := #v[0x03020100, 0x07060504, 0x0B0A0908, 0x0F0E0D0C]

/-- Enabled and initialized with `K1`: its S-box at the entries the vectors use (V-KS-2, V-BT-1, V-BT-6, V-BT-13), `B0` as
operand. -/
def oneKeyed : State :=
  { zeroKeyed with
    mkey := keyOne
    sbox := (((shifted 8 256 1).set 0 0x20).set 0x1F 0x01).set 0xE0 0x00
    isbox := ((shifted 8 256 255).set 0 0xE0).set 1 0x1F
    pos := shifted 16 8 0
    ncnt := #v[2, 3, 4, 5, 6, 7, 1, 2]
    din := blockZero }

/-- `s` with `DIN[0] = v`. -/
def operand (v : Word) (s : State) : State := { s with din := #v[v, 0, 0, 0] }

/-- `s` with a command word in progress. -/
def pend (w : Word) (s : State) : State := accept w s

/-- `s` with a schedule. -/
def scheduled (l : List Input) (s : State) : State := { s with inputs := l }

/-- The staged `K1` (V-CTX-1). -/
def stagedOne : State :=
  { State.reset with
    key := #v[0x03020100, 0x07060504, 0x0B0A0908, 0x0F0E0D0C, 0x13121110, 0x17161514, 0x1B1A1918, 0x1F1E1D1C]
    keymask := 0xFF }

/-- The error code a word completes with. -/
def codeOf (w : Word) (s : State) : Option Nat := (result (engineTurn (pend w s))).map fun t => t.errcode.toNat

/-! ### WellFormed smoke: each check refuses an ill-formed command -/

theorem test_wellFormed_refuses_sel :
    ([.rdPos 16, .wrPos 16, .rdNotch 16 0, .wrNotch 16 0, .wrNcnt 16, .rdRfwd 16 0, .rdRinv 16 0, .rdRkey 16] :
      List Instr).map wellFormed = List.replicate 8 false := by decide

theorem test_wellFormed_refuses_n :
    ([.rdNotch 0 8, .wrNotch 0 8] : List Instr).map wellFormed = [false, false] := by decide

theorem test_wellFormed_refuses_idx :
    ([.rdRfwd 0 65536, .rdRinv 0 65536, .rdPlug 65536, .rdSbox 65536, .rdIsbox 65536] : List Instr).map wellFormed =
      List.replicate 5 false := by decide

/-! ### Decoding: words written out from the opcode map of 30_encoding (R92, R93, R104) -/

theorem test_decode_context : [0x00000001#32, 0x00000002, 0x00000003].map decode =
    [some .init, some .msgrst, some .teardown] := by decide

theorem test_decode_units : [0x00000010#32, 0x00000011, 0x00000018, 0x00000019].map decode =
    [some .cenc, some .cdec, some .benc, some .bdec] := by decide

theorem test_decode_passes : [0x00000020#32, 0x00000021, 0x00000022, 0x00000023].map decode =
    [some .pbApply, some .rotFwd, some .rotBwd, some .rotStep] := by decide

theorem test_decode_block : [0x00000024#32, 0x00000025, 0x00000026, 0x00000027, 0x00000028, 0x00000029, 0x0000002A,
      0x0000002B, 0x0000002C].map decode =
    [some .btFwd, some .btInv, some .btSub, some .btShr, some .btMix, some .btArk, some .btIsub, some .btIshr,
      some .btImix] := by decide

theorem test_decode_rotor : [0x00000530#32, 0x00000A31, 0x00001032, 0x00002133, 0x00000734].map decode =
    [some (.rdPos 5), some (.wrPos 10), some (.rdNotch 0 1), some (.wrNotch 1 2), some (.wrNcnt 7)] := by decide

theorem test_decode_tables : [0x00410338#32, 0xFFFF0739, 0x01F9003A, 0x00FF003B, 0x0001003C].map decode =
    [some (.rdRfwd 3 0x41), some (.rdRinv 7 0xFFFF), some (.rdPlug 0x1F9), some (.rdSbox 0xFF), some (.rdIsbox 1)] := by
  decide

theorem test_decode_readback : [0x00000E3D#32, 0x0000003E, 0x0000003F].map decode =
    [some (.rdRkey 14), some .rdCreg, some .rdBreg] := by decide

/-- The illegal words of V-ERR-1. -/
theorem test_decode_refuses : [0x00000000#32, 0x00000040, 0x00008023, 0x00010010, 0x0000013A, 0x00001030].map decode =
    List.replicate 6 none := by decide

/-! ### Errors (V-ERR-1) -/

theorem test_illegal_words : [0x00000000, 0x00000040, 0x00008023, 0x00010010, 0x0000013A, 0x00001030].map
    (codeOf · zeroKeyed) = List.replicate 6 (some 5) := by decide

theorem test_not_initialized : [0x00000010, 0x00000003, 0x00000930].map
    (codeOf · { State.reset with diag := true }) = List.replicate 3 (some 2) := by decide

theorem test_diag_disabled : [0x00000030, 0x00000930].map (codeOf · { zeroKeyed with diag := false }) =
    List.replicate 2 (some 7) := by decide

theorem test_bad_operand : [0x00000930, 0x00007032, 0x00000F3D, 0x0100003B].map (codeOf · zeroKeyed) =
    List.replicate 4 (some 6) := by decide

theorem test_bad_value : (codeOf 0x00000031 (operand 0x10000 zeroKeyed), codeOf 0x00000034 (operand 0 zeroKeyed),
    codeOf 0x00000034 (operand 8 zeroKeyed)) = (some 6, some 6, some 6) := by decide

theorem test_in_range : [0x00000E3D, 0x00FF003B].map (codeOf · zeroKeyed) = List.replicate 2 (some 0) := by decide

theorem test_key_not_staged : codeOf 0x00000001 { stagedOne with keymask := 0x7F } = some 1 := by decide

/-- A failed completion from idle reset: `STATUS = 0x0000000C` (V-CTX-3). -/
theorem test_status_after_error : (result (engineTurn (pend 0x10 State.reset))).map statusWord = some 0x0000000C := by
  decide

/-! ### The context commands (V-CTX-1 to V-CTX-3, V-KS-2) -/

theorem test_init_context : (result (exec .init stagedOne)).map (fun t => (statusWord t, t.pos.toList, t.ncnt.toList)) =
    some (0x00000005, [0, 1, 2, 3, 4, 5, 6, 7], [2, 3, 4, 5, 6, 7, 1, 2]) := by decide +kernel

theorem test_init_notches : (result (exec .init stagedOne)).map
    (fun t => ((nth t.notch 0).toList, nth t.mkey 31, t.keymask, nth t.key 7)) =
      some ([502, 753, 0, 0, 0, 0, 0], 0x1F, 0, 0) := by decide +kernel

theorem test_msgrst : (result (exec .msgrst { oneKeyed with
    pos := Vector.replicate 8 9
    cst := true
    creg := Vector.replicate 16 1 })).map (fun t => (t.pos.toList, t.cst, nth t.creg 0)) =
      some ([0, 1, 2, 3, 4, 5, 6, 7], false, 0) := by decide

theorem test_teardown : (result (exec .teardown oneKeyed)).map
    (fun t => (statusWord t, nth t.mkey 31, nth t.din 0)) = some (0x00000004, 0, 0) := by decide

/-! ### The unit commands (V-CH-5, V-SRC-2, V-BK-1, V-BK-2, V-BK-4) -/

theorem test_cenc : (result (exec .cenc (operand 0x48 zeroKeyed))).map
    (fun t => (nth t.dout 0, nth t.creg 0, nth t.pos 0, statusWord t)) = some (0x48, 0x48, 1, 0x00000045) := by
  decide +kernel

/-- The second unit of V-CH-5: `CREG[0] = 0x48` and one step taken. -/
theorem test_cenc_feedback : (result (exec .cenc (operand 0x69
    { zeroKeyed with creg := Vector.set (Vector.replicate 16 0) 0 0x48, pos := Vector.set (Vector.replicate 8 0) 0 1 }))).map
      (fun t => (nth t.dout 0, nth t.creg 0)) = some (0x21, 0x21) := by decide +kernel

theorem test_cdec : (result (exec .cdec (operand 0x21
    { zeroKeyed with creg := Vector.set (Vector.replicate 16 0) 0 0x48, pos := Vector.set (Vector.replicate 8 0) 0 1 }))).map
      (fun t => (nth t.dout 0, nth t.creg 0, nth t.pos 0, t.mode)) = some (0x69, 0x21, 2, true) := by decide +kernel

theorem test_benc : (result (exec .benc oneKeyed)).map (fun t => (t.dout, nth t.breg 0, statusWord t)) =
    some (#v[0x27050022, 0x040B0A05, 0x0A090C0F, 0x100F0E11], 0x22, 0x00000085) := by decide +kernel

theorem test_bdec : (result (exec .bdec { oneKeyed with
    din := #v[0x27050022, 0x040B0A05, 0x0A090C0F, 0x100F0E11] })).map (fun t => (nth t.dout 1, nth t.breg 0, t.mode)) =
      some (0x010D010D, 0x22, true) := by decide +kernel

theorem test_bdec_zero : (result (exec .bdec zeroKeyed)).map (fun t => (t.dout, nth t.breg 15)) =
    some (Vector.replicate 4 0xFFFFFFFF, 0) := by decide +kernel

/-! ### The diagnostic commands (V-ROT-1 to V-ROT-5, V-PLUG-1, V-BT-1 to V-BT-14, V-CH-6) -/

theorem test_pbApply : doutOf (exec .pbApply (operand 0x41 zeroKeyed)) = some (#v[0x41, 0, 0, 0], 0) := by decide +kernel

theorem test_pbApply_outside_bmp :
    doutOf (exec .pbApply (operand 0x1F600 zeroKeyed)) = some (#v[0x1F600, 0, 0, 0], 0) := by decide +kernel

theorem test_rotFwd : doutOf (exec .rotFwd (operand 0x41 zeroKeyed)) = some (#v[0x49, 0, 0, 0], 0) := by decide +kernel

theorem test_rotFwd_outside_bmp :
    doutOf (exec .rotFwd (operand 0x1F600 zeroKeyed)) = some (#v[0x1F600, 0, 0, 0], 0) := by decide +kernel

/-- `ROT_BWD` undoes the `ROT_FWD` of V-ROT-1 (R153). -/
theorem test_rotBwd : doutOf (exec .rotBwd (operand 0x49 zeroKeyed)) = some (#v[0x41, 0, 0, 0], 0) := by decide +kernel

/-- Step 5 of V-SRC-1: rotor 0 reaches its notch at 5, rotor 1 advances to 1 and is not on its notch at 3. -/
theorem test_rotStep_cascade : (result (exec .rotStep { zeroKeyed with
    pos := #v[4, 0, 0, 0, 0, 0, 0, 0]
    notch := Vector.set (Vector.set (Vector.replicate 8 (Vector.replicate 7 0)) 0 #v[5, 0, 0, 0, 0, 0, 0]) 1
      #v[3, 0, 0, 0, 0, 0, 0] })).map (fun t => t.pos.toList) = some [5, 1, 0, 0, 0, 0, 0, 0] := by decide

/-- V-ROT-4 item 2: every rotor on its notch. -/
theorem test_rotStep_all : (result (exec .rotStep { zeroKeyed with
    notch := Vector.replicate 8 #v[1, 0, 0, 0, 0, 0, 0] })).map (fun t => t.pos.toList) =
      some [1, 1, 1, 1, 1, 1, 1, 1] := by decide

theorem test_rdPos : doutOf (exec (.rdPos 5) oneKeyed) = some (#v[5, 0, 0, 0], 0) := by decide

/-- V-ROT-4 item 1 writes 0xFFFF to `POS[0]`. -/
theorem test_wrPos : (result (exec (.wrPos 0) (operand 0xFFFF oneKeyed))).map (fun t => t.pos.toList) =
    some [0xFFFF, 1, 2, 3, 4, 5, 6, 7] := by decide

theorem test_rdNotch : doutOf (exec (.rdNotch 0 1) { oneKeyed with
    notch := Vector.replicate 8 #v[502, 753, 0, 0, 0, 0, 0] }) = some (#v[753, 2, 0, 0], 0) := by decide

theorem test_wrNotch : (result (exec (.wrNotch 1 2) (operand 0x1234 oneKeyed))).map
    (fun t => ((nth t.notch 1).toList, (nth t.notch 0).toList)) =
      some ([0, 0, 0x1234, 0, 0, 0, 0], [0, 0, 0, 0, 0, 0, 0]) := by decide

theorem test_wrNcnt : (result (exec (.wrNcnt 0) (operand 7 oneKeyed))).map (fun t => t.ncnt.toList) =
    some [7, 3, 4, 5, 6, 7, 1, 2] := by decide

theorem test_rdRfwd : doutOf (exec (.rdRfwd 7 0x41) zeroKeyed) = some (#v[0x42, 0, 0, 0], 0) := by decide +kernel

/-- V-KS-1: `RD_RINV r, 0` returns 0xFFFF. -/
theorem test_rdRinv : doutOf (exec (.rdRinv 7 0) zeroKeyed) = some (#v[0xFFFF, 0, 0, 0], 0) := by decide +kernel

theorem test_rdPlug : doutOf (exec (.rdPlug 0x1F9) zeroKeyed) = some (#v[0x1F9, 0, 0, 0], 0) := by decide +kernel

theorem test_rdSbox : doutOf (exec (.rdSbox 0xFF) zeroKeyed) = some (#v[0, 0, 0, 0], 0) := by decide +kernel

theorem test_rdIsbox : doutOf (exec (.rdIsbox 0) zeroKeyed) = some (#v[0xFF, 0, 0, 0], 0) := by decide +kernel

theorem test_rdRkey : doutOf (exec (.rdRkey 14) oneKeyed) =
    some (#v[0x1B1A1918, 0x1F1E1D1C, 0x03020100, 0x07060504], 0) := by decide +kernel

theorem test_rdCreg : doutOf (exec .rdCreg { oneKeyed with creg := Vector.set (Vector.replicate 16 0) 0 0x48 }) =
    some (#v[0x48, 0, 0, 0], 0) := by decide +kernel

theorem test_rdBreg : doutOf (exec .rdBreg { oneKeyed with breg := shifted 8 16 0 }) = some (blockZero, 0) := by
  decide +kernel

theorem test_btFwd : doutOf (exec .btFwd oneKeyed) =
    some (#v[0x27050022, 0x040B0A05, 0x0A090C0F, 0x100F0E11], 0) := by decide +kernel

theorem test_btInv : doutOf (exec .btInv oneKeyed) = some (Vector.replicate 4 0xE0E0E0E0, 0) := by decide +kernel

theorem test_btSub : doutOf (exec .btSub oneKeyed) =
    some (#v[0x04030220, 0x08070605, 0x0C0B0A09, 0x100F0E0D], 0) := by decide +kernel

theorem test_btShr : doutOf (exec .btShr oneKeyed) =
    some (#v[0x03020100, 0x04070605, 0x09080B0A, 0x0E0D0C0F], 0) := by decide +kernel

theorem test_btMix : doutOf (exec .btMix (operand 0x04030201 oneKeyed)) = some (#v[0x05070103, 0, 0, 0], 0) := by
  decide +kernel

theorem test_btArk : doutOf (exec .btArk oneKeyed) = some (#v[0, 0, 0, 0], 0) := by decide +kernel

theorem test_btIsub : doutOf (exec .btIsub oneKeyed) =
    some (#v[0x02011FE0, 0x06050403, 0x0A090807, 0x0E0D0C0B], 0) := by decide +kernel

theorem test_btIshr : doutOf (exec .btIshr oneKeyed) =
    some (#v[0x03020100, 0x06050407, 0x09080B0A, 0x0C0F0E0D], 0) := by decide +kernel

theorem test_btImix : doutOf (exec .btImix (operand 0x05070103 oneKeyed)) = some (#v[0x02060206, 0, 0, 0], 0) := by
  decide +kernel

/-! ### The key schedule (V-KS-1, V-KS-2, V-BT-13) -/

theorem test_sbox_of_keyOne : nth (ksSbox 0 keyOne) 0 = 0x20 ∧ nth (ksSbox 0 keyOne) 0x1F = 0x01 ∧
    nth (ksSbox 0 keyOne) 0xE0 = 0x00 := by
  rw [ksSbox, nth_shuffle _ (by omega), nth_shuffle _ (by omega), nth_shuffle _ (by omega)]
  decide +kernel

/-- At offset 1, `K1`'s key byte for step `i` is `(i + 1) mod 32`: the same as at offset 0 for the key shifted by one byte
(R130). -/
theorem test_sbox_at_another_offset :
    nth (ksSbox 1 keyOne) 0 = nth (ksSbox 0 (Vector.ofFn fun j : Fin 32 => BitVec.ofNat 8 ((j + 1) % 32))) 0 ∧
    nth (ksSbox 1 keyOne) 0 ≠ nth (ksSbox 0 keyOne) 0 := by
  rw [ksSbox, ksSbox, ksSbox, nth_shuffle _ (by omega), nth_shuffle _ (by omega), nth_shuffle _ (by omega)]
  decide +kernel

theorem test_plug_of_keyOne : nth (ksPlug [] keyOne) 0x0001 = 0x01F9 ∧ nth (ksPlug [] keyOne) 0x03F1 = 0x05E9 ∧
    nth (ksPlug [] keyOne) 0x0041 = 0x0041 := by
  rw [ksPlug, nth_ksPlugWith _ _ (by omega), nth_ksPlugWith _ _ (by omega), nth_ksPlugWith _ _ (by omega)]
  decide +kernel

/-- Another `PLUG_PAIR` for `K1`: (2, 3) at step 0 and (0, 0) from there on exchanges the entries 2 and 3 (R129). -/
theorem test_plug_of_another_pair :
    let pairs : PlugParameter := [(keyOne, Vector.set (Vector.replicate 149 (0, 0)) 0 (2, 3))]
    nth (ksPlug pairs keyOne) 2 = 3 ∧ nth (ksPlug pairs keyOne) 3 = 2 ∧ nth (ksPlug pairs keyOne) 1 = 1 := by
  intro pairs
  rw [ksPlug, nth_ksPlugWith _ _ (by omega), nth_ksPlugWith _ _ (by omega), nth_ksPlugWith _ _ (by omega)]
  decide +kernel

/-! ### The window, steps and reset (R62 to R72, R80, R312) -/

theorem test_read_id : (result (step (scheduled [.read 0x00] State.reset))).map (fun t => t.readData) =
    some 0x524F5437 := by decide

theorem test_write_key : (result (step (scheduled [.write 0x5C 0x1F1E1D1C] State.reset))).map
    (fun t => (nth t.key 7, t.keymask)) = some (0x1F1E1D1C, 0x80) := by decide

theorem test_write_busy : (result (step (scheduled [.write 0x20 7] (pend 0x10 zeroKeyed)))).map
    (fun t => (nth t.din 0, t.ovr, t.pending)) = some (0, true, 0x10) := by decide

theorem test_step_fetches_init : (result (step (State.reset.withFetchWord 32 0x00000001))).map
    (fun t => t.errcode) = some 1 := by decide

theorem test_step_fetches_unit : (result (step (State.reset.withFetchWord 32 0x00000010))).map
    (fun t => t.errcode) = some 2 := by decide

theorem test_step_fetches_diagnostic : (result (step (State.reset.withFetchWord 32 0x00410338))).map
    (fun t => t.errcode) = some 7 := by decide

/-- `withFetchWord` runs its word before the schedule's next entry. -/
theorem test_step_fetches_first :
    (result (step ((scheduled [.write 0x20 7] zeroKeyed).withFetchWord 32 0x00000530))).map
      (fun t => (t.dout, t.inputs)) = some (#v[0, 0, 0, 0], [.write 0x20 7]) := by decide

/-! ### Witnesses: a state and operands that meet every hypothesis of a statement, each clause at a boundary value -/

/-- The state a step answers, or the state itself. -/
def after (o : Host.Outcome State Fault Refusal) (s : State) : State := (result o).getD s

theorem sboxes_inverse : SboxesInverse zeroKeyed.sbox zeroKeyed.isbox := by
  intro x
  have h1 : zeroKeyed.sbox = shifted 8 256 1 := rfl
  have h2 : zeroKeyed.isbox = shifted 8 256 255 := rfl
  have := x.isLt
  rw [h1, h2, byteTableAt_shifted, byteTableAt_shifted, byteTableAt_shifted, byteTableAt_shifted]
  constructor <;> apply BitVec.eq_of_toNat_eq <;> simp only [BitVec.toNat_ofNat] <;> omega

theorem witness_DecodeInvertsEncode : wellFormed (.rdRfwd 15 65535) = true ∧ wellFormed (.wrNotch 15 7) = true ∧
    wellFormed .init = true := by decide

theorem witness_EncodeInvertsDecode : decode 0xFFFF0F39 = some (.rdRinv 15 65535) ∧
    decode 0x00007F33 = some (.wrNotch 15 7) ∧ decode 0x0000003F = some .rdBreg := by decide

theorem witness_WordsAreAssembledFromFields : wellFormed (.rdRfwd 0 0) = true ∧ wellFormed (.rdNotch 15 7) = true ∧
    wellFormed (.rdPlug 65535) = true := by decide

theorem witness_StepRunsDecodedCommand :
    (pend 0x10 zeroKeyed).busy = true ∧ decode (pend 0x10 zeroKeyed).pending = some .cenc ∧
    (pend 0x10 zeroKeyed).inputs = [] ∧
    (scheduled [.engine, .read 0] (pend 0x10 zeroKeyed)).busy = true ∧
    decode (scheduled [.engine, .read 0] (pend 0x10 zeroKeyed)).pending = some .cenc ∧
    (scheduled [.engine, .read 0] (pend 0x10 zeroKeyed)).inputs = .engine :: [.read 0] := by decide

theorem not_inOpcodeTable : ¬InOpcodeTable 0x00000000 ∧ ¬InOpcodeTable 0x00000040 ∧ ¬InOpcodeTable 0xFFFFFFFF ∧
    ¬InOpcodeTable 0x00008023 := by unfold InOpcodeTable; decide

theorem witness_IllegalWordReportsIllegalCommand : (pend 0x8023 State.reset).busy = true ∧
    ¬InOpcodeTable (pend 0x8023 State.reset).pending := ⟨rfl, not_inOpcodeTable.2.2.2⟩

theorem witness_AcceptedCommandAlwaysEnds : (pend 0x10 State.reset).busy = true ∧
    (scheduled [.read 0, .engine] (pend 0x10 State.reset)).busy = true := by decide

theorem witness_AccessesWhileBusyLeaveTheCommand :
    let l := [Input.write 0x10 1, Input.read 0x30]
    let s := scheduled (l ++ [.engine]) (pend 0x10 zeroKeyed)
    s.busy = true ∧ s.inputs = l ++ [.engine] ∧ ∀ x ∈ l, isAccess x = true := by decide

theorem witness_WriteWhileBusyIsDiscarded :
    let s := scheduled [.write 0xFF 7] (pend 0x10 zeroKeyed)
    s.inputs = .write 0xFF 7 :: [] ∧ s.busy = true := by decide

theorem witness_ReadsReturnTheRegisters :
    (scheduled [.read 0x3F] zeroKeyed).inputs = .read 0x3F :: [] ∧ (scheduled [.read 0x3F] zeroKeyed).busy = false ∧
    ([0x00#8, 0x03, 0x04, 0x07, 0x08, 0x0B, 0x0C, 0x0F, 0x10, 0x13].map fun o => o.toNat / 4) =
      [0, 0, 1, 1, 2, 2, 3, 3, 4, 4] ∧
    ([0x14#8, 0x1F].map fun o => o.toNat / 4) = [5, 7] ∧
    ([0x20#8, 0x2F].map fun o => o.toNat / 4) = [8 + 0, 8 + 3] ∧
    ([0x30#8, 0x3F].map fun o => o.toNat / 4) = [12 + 0, 12 + 3] ∧
    ([0x40#8, 0xFF].map fun o => o.toNat / 4) = [16, 63] := by decide

theorem witness_BusyDoutReadIsFree :
    let s := scheduled [.read 0x30] (pend 0x10 zeroKeyed)
    let t := scheduled [.read 0x3F] (pend 0x10 zeroKeyed)
    (s.inputs = .read 0x30 :: [] ∧ s.busy = true ∧ 12 ≤ (0x30#8).toNat / 4 ∧ (0x30#8).toNat / 4 ≤ 15) ∧
    (t.inputs = .read 0x3F :: [] ∧ t.busy = true ∧ 12 ≤ (0x3F#8).toNat / 4 ∧ (0x3F#8).toNat / 4 ≤ 15) := by decide

theorem witness_WriteCtrlSetsDiagAndIe :
    let s := scheduled [.write 0x07 3] State.reset
    s.inputs = .write 0x07 3 :: [] ∧ s.busy = false ∧ (0x07#8).toNat / 4 = 1 := by decide

theorem witness_WriteStatusClearsFlags :
    let s := scheduled [.write 0x08 0x1C] { State.reset with done := true, err := true, ovr := true }
    s.inputs = .write 0x08 0x1C :: [] ∧ s.busy = false ∧ (0x08#8).toNat / 4 = 2 := by decide

theorem witness_WriteCmdAcceptsTheWord :
    let s := scheduled [.write 0x10 0xFFFFFFFF] State.reset
    s.inputs = .write 0x10 0xFFFFFFFF :: [] ∧ s.busy = false ∧ (0x10#8).toNat / 4 = 4 := by decide

theorem witness_WriteDinWritesOneRegister :
    let s := scheduled [.write 0x2C 5] State.reset
    s.inputs = .write 0x2C 5 :: [] ∧ s.busy = false ∧ 3 < 4 ∧ (0x2C#8).toNat / 4 = 8 + 3 ∧ (0x20#8).toNat / 4 = 8 + 0 := by
  decide

theorem witness_WriteKeyStagesOneWord :
    let s := scheduled [.write 0x5C 5] State.reset
    s.inputs = .write 0x5C 5 :: [] ∧ s.busy = false ∧ 7 < 8 ∧ (0x5C#8).toNat / 4 = 16 + 7 ∧
      (0x40#8).toNat / 4 = 16 + 0 := by decide

theorem witness_WriteElsewhereChangesNothing :
    let s := scheduled [.write 0x60 5] State.reset
    s.inputs = .write 0x60 5 :: [] ∧ s.busy = false ∧
    ([0x00#8, 0x0C, 0x14, 0x1C, 0x30, 0x3C, 0x60, 0xFF].map fun o => o.toNat / 4) = [0, 3, 5, 7, 12, 15, 24, 63] := by
  decide

theorem witness_AddressesSelectWholeRegisters : (0x31#8).toNat / 4 = (0x33#8).toNat / 4 ∧
    (Config.base + 256 < Config.base ∨ Config.base + 256 ≤ Config.base + 256) := ⟨by decide, .inr le_rfl⟩

theorem witness_PowerOnResetRestoresResetValues :
    (scheduled [.powerOnReset] (pend 0x10 oneKeyed)).inputs = .powerOnReset :: [] := rfl

/-- One busy state for each clause of R308. -/
theorem witness_ChecksAreMadeInOrder :
    (∀ w, (pend w zeroKeyed).busy = true) ∧ ¬InOpcodeTable (pend 0 zeroKeyed).pending ∧
    decode 0x00000930 = some (.rdPos 9) ∧ 0x20 ≤ opcode (.rdPos 9) ∧ opcode (.rdPos 9) ≠ 0x01 ∧
    State.reset.diag = false ∧ State.reset.init = false ∧
    badOperand (.rdPos 9) (nth zeroKeyed.din 0) = true ∧ badOperand (.rdPos 7) (nth zeroKeyed.din 0) = false ∧
    decode 0x00000001 = some .init ∧ State.reset.keymask ≠ 0xFF ∧ stagedOne.keymask = 0xFF :=
  ⟨fun _ => rfl, not_inOpcodeTable.1, by decide⟩

theorem witness_OperandRangesAreChecked : zeroKeyed.diag = true ∧ zeroKeyed.init = true ∧
    opcode .rdCreg ∉ [0x30, 0x31, 0x32, 0x33, 0x34, 0x38, 0x39, 0x3B, 0x3C, 0x3D] ∧
    ∃ t, exec .rdCreg zeroKeyed = .next t := ⟨rfl, rfl, by decide, _, rfl⟩

theorem witness_ErrorsArePrecise : (pend 0 State.reset).busy = true ∧
    ∃ t, engineTurn (pend 0 State.reset) = .next t ∧ t.errcode ≠ 0 := ⟨rfl, _, rfl, by decide⟩

theorem witness_CompletionWritesTheStatus :
    (∃ t, engineTurn (pend 0 State.reset) = .next t ∧ t.errcode ≠ 0) ∧
    ∃ t, engineTurn (pend 0x23 zeroKeyed) = .next t ∧ t.errcode = 0 := ⟨⟨_, rfl, by decide⟩, ⟨_, rfl, by decide⟩⟩

theorem witness_InterruptFollowsDoneAndIe :
    let s := { State.reset with done := true, ie := true }
    (∃ t, engineTurn (pend 0x23 zeroKeyed) = .next t) ∧ s.busy = false ∧ s.done = true ∧ (0x04#8).toNat / 4 = 1 ∧
    irq s = true ∧ irq (hostWrite 0x04 0 s) = false ∧ irq (hostWrite 0x08 4 s) = false ∧ irq (hostWrite 0x10 0 s) = false :=
  ⟨⟨_, rfl⟩, by decide⟩

/-- Built with the default `PLUG_PAIR`, so that the clause about it is met too. -/
theorem witness_InitBuildsTheContext : stagedOne.keymask = 0xFF ∧ stagedOne.plugPairs = [] := ⟨rfl, rfl⟩

theorem witness_MsgrstRewindsTheMessage : oneKeyed.init = true := rfl

theorem witness_TeardownErasesTheContext : oneKeyed.init = true := rfl

theorem witness_OnlyInitAndTeardownChangeTheLifecycle :
    (∃ t, step (pend 1 stagedOne) = .next t ∧ (pend 1 stagedOne).init = false ∧ t.init = true) ∧
    (∃ t, step (pend 3 oneKeyed) = .next t ∧ (pend 3 oneKeyed).init = true ∧ t.init = false) ∧
    ∃ t, step (scheduled [.powerOnReset] oneKeyed) = .next t ∧ oneKeyed.init = true ∧ t.init = false :=
  ⟨⟨_, rfl, rfl, rfl⟩, ⟨_, rfl, rfl, rfl⟩, ⟨_, rfl, rfl, rfl⟩⟩

theorem witness_CencEncryptsOneUnit : zeroKeyed.init = true := rfl

theorem witness_CdecDecryptsOneUnit : zeroKeyed.init = true := rfl

theorem witness_BencEncryptsOneBlock : oneKeyed.init = true ∧ ∃ w : Block,
    ∀ i < 16, nth w i = byteOf (nth oneKeyed.din (i / 4)) (i % 4) ^^^ nth oneKeyed.breg i :=
  ⟨rfl, xorBytes (blockOperand oneKeyed) oneKeyed.breg, by decide +kernel⟩

theorem witness_BdecDecryptsOneBlock : oneKeyed.init = true := rfl

/-- An encrypting engine, and a decrypting one given its output. -/
def encrypted (s : State) : State := after (exec .cenc s) s

/-- The decrypting engine of `s`, given the output of `s`. -/
def receiver (s : State) : State := { s with din := (encrypted s).dout }

theorem exec_encrypted {s : State} (h : s.init = true) : exec .cenc s = .next (encrypted s) := by
  rw [encrypted, exec_of_check (check_initialized h rfl (by simp))]
  rfl

theorem exec_receiver {s : State} (h : s.init = true) : ∃ t, exec .cdec (receiver s) = .next t :=
  ⟨_, exec_of_check (check_initialized (s := receiver s) h rfl (by simp))⟩

/-- The receiver holds the sender's context. -/
theorem receiver_context (s : State) : (receiver s).init = s.init ∧ s.creg = (receiver s).creg ∧
    s.pos = (receiver s).pos ∧ (receiver s).mkey = s.mkey ∧ nth (receiver s).din 0 = nth (encrypted s).dout 0 ∧
    (TablesFollowKey s → TablesFollowKey (receiver s)) ∧ (receiver s).plugPairs = s.plugPairs :=
  ⟨rfl, rfl, rfl, rfl, rfl, id, rfl⟩

theorem witness_CharacterSidesStayInStep : ∃ s t s' t' : State, s.init = true ∧ t.init = true ∧
    s.creg = t.creg ∧ s.pos = t.pos ∧ s.ncnt = t.ncnt ∧ s.notch = t.notch ∧
    exec .cenc s = .next s' ∧ nth t.din 0 = nth s'.dout 0 ∧ exec .cdec t = .next t' :=
  ⟨oneKeyed, receiver oneKeyed, encrypted oneKeyed, _, rfl, rfl, rfl, rfl, rfl, rfl, exec_encrypted rfl, rfl,
    (exec_receiver rfl).choose_spec⟩

theorem witness_UnitDecryptsExactlyWhenPassesCompose : ∃ s t s' t' : State, s.init = true ∧ t.init = true ∧
    s.creg = t.creg ∧ s.pos = t.pos ∧ s.ncnt = t.ncnt ∧ s.notch = t.notch ∧ s.rfwd = t.rfwd ∧ s.rinv = t.rinv ∧
    s.plug = t.plug ∧ exec .cenc s = .next s' ∧ nth t.din 0 = nth s'.dout 0 ∧ exec .cdec t = .next t' :=
  ⟨oneKeyed, receiver oneKeyed, encrypted oneKeyed, _, rfl, rfl, rfl, rfl, rfl, rfl, rfl, rfl, rfl,
    exec_encrypted rfl, rfl, (exec_receiver rfl).choose_spec⟩

theorem witness_UnitsOutsideBmpRoundTrip : ∃ s t s' t' : State, s.init = true ∧ t.init = true ∧ s.creg = t.creg ∧
    65536 ≤ (nth s.din 0).toNat ∧ exec .cenc s = .next s' ∧ nth t.din 0 = nth s'.dout 0 ∧ exec .cdec t = .next t' :=
  ⟨operand 0x10000 zeroKeyed, receiver (operand 0x10000 zeroKeyed), encrypted (operand 0x10000 zeroKeyed), _, rfl, rfl,
    rfl, by decide, exec_encrypted rfl, rfl, (exec_receiver rfl).choose_spec⟩

/-- The real context of the all-zero key. -/
def zeroContext : State := loadContext (Vector.replicate 32 0) State.reset

theorem tablesFollowKey_zeroContext : TablesFollowKey zeroContext := ⟨rfl, rfl, rfl, rfl, rfl⟩

theorem witness_ZeroKeyUnitsRoundTrip : ∃ s t s' t' : State, s.init = true ∧ t.init = true ∧ TablesFollowKey s ∧
    TablesFollowKey t ∧ s.plugPairs = [] ∧ t.plugPairs = [] ∧
    s.mkey = Vector.replicate 32 0 ∧ t.mkey = Vector.replicate 32 0 ∧ s.creg = t.creg ∧
    exec .cenc s = .next s' ∧ nth t.din 0 = nth s'.dout 0 ∧ exec .cdec t = .next t' :=
  ⟨zeroContext, receiver zeroContext, encrypted zeroContext, _, rfl, (receiver_context _).1.trans rfl,
    tablesFollowKey_zeroContext, (receiver_context _).2.2.2.2.2.1 tablesFollowKey_zeroContext, rfl,
    (receiver_context _).2.2.2.2.2.2.trans rfl, rfl,
    (receiver_context _).2.2.2.1.trans rfl, (receiver_context _).2.1, exec_encrypted rfl,
    (receiver_context _).2.2.2.2.1, (exec_receiver rfl).choose_spec⟩

/-- Both sides of the equivalence occur: a block of `ISBOX[0] = 0xFF` bytes, and the zero block. -/
theorem witness_BlockDecryptsExactlyAtIsboxZero :
    zeroKeyed.init = true ∧ SboxesInverse zeroKeyed.sbox zeroKeyed.isbox ∧
    (∃ s' t', exec .benc zeroKeyed = .next s' ∧
      exec .bdec { zeroKeyed with din := s'.dout } = .next t') ∧
    (∀ i < 16, byteOf (nth (Vector.replicate 4 0xFFFFFFFF) (i / 4)) (i % 4) ^^^ nth zeroKeyed.breg i =
      ByteTable.at zeroKeyed.isbox 0) ∧
    ¬∀ i < 16, byteOf (nth zeroKeyed.din (i / 4)) (i % 4) ^^^ nth zeroKeyed.breg i = ByteTable.at zeroKeyed.isbox 0 :=
  ⟨rfl, sboxes_inverse, ⟨_, _, exec_of_check (check_initialized rfl rfl (by simp)),
    exec_of_check (check_initialized rfl rfl (by simp))⟩, by decide +kernel, by decide +kernel⟩


theorem witness_PlugboardCommandsReadTheTable : zeroKeyed.diag = true ∧ zeroKeyed.init = true ∧ 65535 < 65536 := by decide

/-- Every rotor table the identity: a pass returns its operand. -/
def identityBanked (v : Word) : State :=
  { operand v zeroKeyed with
    rfwd := Vector.replicate 8 (identityTable 16 65536)
    rinv := Vector.replicate 8 (identityTable 16 65536) }

theorem identityBanked_step (v : Word) {r : Nat} (h : v.toNat < 65536) :
    ((nth (nth (identityBanked v).rfwd r) ((v.toNat + (nth (identityBanked v).pos r).toNat) % 65536)).toNat + 65536 -
      (nth (identityBanked v).pos r).toNat) % 65536 = v.toNat ∧
    ((nth (nth (identityBanked v).rinv r) ((v.toNat + (nth (identityBanked v).pos r).toNat) % 65536)).toNat + 65536 -
      (nth (identityBanked v).pos r).toNat) % 65536 = v.toNat := by
  have hp : nth (identityBanked v).pos r = 0 := nth_replicate _ _
  have hf : nth (identityBanked v).rfwd r = identityTable 16 65536 := nth_replicate _ _
  have hi : nth (identityBanked v).rinv r = identityTable 16 65536 := nth_replicate _ _
  rw [hp, hf, hi, nth_identityTable (by omega)]
  simp only [BitVec.toNat_ofNat, BitVec.ofNat_eq_ofNat]
  omega

/-- Both BMP clauses at 0xFFFF, with the trace of the passes, and the clause outside it at 0x10000. -/
theorem witness_RotorPassCommandsRunAllRotors :
    let s := identityBanked 0xFFFF
    let b := identityBanked 0x10000
    let u : Nat → Nat := fun _ => (0xFFFF#32).toNat
    s.diag = true ∧ s.init = true ∧ (nth s.din 0).toNat < 65536 ∧
    b.diag = true ∧ b.init = true ∧ 65536 ≤ (nth b.din 0).toNat ∧
    (u 0 = (nth s.din 0).toNat ∧ ∀ r < 8, u (r + 1) =
      ((nth (nth s.rfwd r) ((u r + (nth s.pos r).toNat) % 65536)).toNat + 65536 - (nth s.pos r).toNat) % 65536) ∧
    (u 8 = (nth s.din 0).toNat ∧ ∀ r < 8, u r =
      ((nth (nth s.rinv r) ((u (r + 1) + (nth s.pos r).toNat) % 65536)).toNat + 65536 - (nth s.pos r).toNat) % 65536) :=
  ⟨rfl, rfl, by decide, rfl, rfl, by decide,
    ⟨rfl, fun r _ => (identityBanked_step 0xFFFF (r := r) (by decide)).1.symm⟩,
    ⟨rfl, fun r _ => (identityBanked_step 0xFFFF (r := r) (by decide)).2.symm⟩⟩

theorem witness_RotStepCascades :
    let s := { zeroKeyed with notch := Vector.replicate 8 #v[1, 0, 0, 0, 0, 0, 0] }
    s.diag = true ∧ s.init = true ∧ (∀ q < 7, StandsOnNotch s (Vector.replicate 8 1) q) ∧
    ¬∀ q < 1, StandsOnNotch zeroKeyed (Vector.replicate 8 1) q := by
  refine ⟨rfl, rfl, fun q hq => ⟨0, ?_, ?_⟩, fun h => ?_⟩
  · simp [zeroKeyed, State.reset]
  · simp
    rfl
  · obtain ⟨n, hn, he⟩ := h 0 (by omega)
    have hz : nth (nth zeroKeyed.notch 0) n = 0 := by simp [zeroKeyed, State.reset]
    rw [hz] at he
    exact absurd he (by decide)

theorem witness_RotorReadbackReturnsTheState : zeroKeyed.diag = true ∧ zeroKeyed.init = true ∧ 7 < 8 ∧ 6 < 7 := by decide

theorem witness_RotorWritesWriteOneEntry :
    let s := operand 0xFFFF zeroKeyed
    let t := operand 7 zeroKeyed
    s.diag = true ∧ s.init = true ∧ 7 < 8 ∧ 6 < 7 ∧ (nth s.din 0).toNat ≤ 0xFFFF ∧
    t.diag = true ∧ t.init = true ∧ 1 ≤ (nth t.din 0).toNat ∧ (nth t.din 0).toNat ≤ 7 := by decide

theorem witness_TableReadsReturnTheEntry : zeroKeyed.diag = true ∧ zeroKeyed.init = true ∧ 7 < 8 ∧ 65535 < 65536 ∧
    255 < 256 := by decide

theorem witness_BlockStepCommandsActOnRows : oneKeyed.diag = true ∧ oneKeyed.init = true := ⟨rfl, rfl⟩

theorem witness_BlockTransformCommandsActOnRows : oneKeyed.diag = true ∧ oneKeyed.init = true := ⟨rfl, rfl⟩

theorem witness_KeyAndChainingReadback : oneKeyed.diag = true ∧ oneKeyed.init = true ∧ 14 < 15 := ⟨rfl, rfl, by decide⟩

theorem witness_ShufflePartnerNeedsNoMultiplier :
    (∃ (kb : Nat → Byte), kb 65535 = 0) ∧ ∃ (kb : Nat → Byte), (kb 65535).toNat % (65535 + 1) = 1 :=
  ⟨⟨fun _ => 0, rfl⟩, ⟨fun _ => 1, rfl⟩⟩

/-- The last slot in use occurs: `K[1] = 6` gives rotor 0 seven notches. -/
theorem witness_KeyScheduleValueRanges : (6 : Nat) < (ksNcnt (Vector.set (Vector.replicate 32 0) 1 6) 0).toNat := by decide

theorem witness_ZeroKeySchedule : ∃ k : Key, k = Vector.replicate 32 0 := ⟨_, rfl⟩

theorem tableAt_identityTable (x : Half) : Table.at (identityTable 16 65536) x = x := by
  rw [tableAt_eq_nth, nth_identityTable x.isLt]
  simp

theorem witness_BackwardUndoesForward : ∃ rfwd rinv : Bank, BanksInverse rfwd rinv :=
  ⟨Vector.replicate 8 (identityTable 16 65536), Vector.replicate 8 (identityTable 16 65536), fun r _ x => by
    simp only [nth_replicate, tableAt_identityTable, and_self]⟩

theorem witness_BlockStepIdentities : SboxesInverse zeroKeyed.sbox zeroKeyed.isbox ∧ 3 < 4 := ⟨sboxes_inverse, by decide⟩

theorem witness_BlockRoundTripRestoresOneBlock : SboxesInverse zeroKeyed.sbox zeroKeyed.isbox := sboxes_inverse

theorem witness_CommandsWriteOnlyTheirState :
    (∃ t, exec .rotStep zeroKeyed = .next t) ∧ (∃ t, exec (.wrNcnt 0) (operand 1 zeroKeyed) = .next t) ∧
    opcode .rotStep ∉ [0x01, 0x03] ∧ opcode .rotStep ∉ [0x01, 0x03, 0x34] ∧ opcode .rotStep ∉ [0x01, 0x03, 0x33] ∧
    opcode .rdCreg ∉ [0x01, 0x02, 0x03, 0x10, 0x11, 0x23, 0x31] ∧ opcode .rotStep ∉ [0x01, 0x02, 0x03, 0x10, 0x11] ∧
    opcode .rotStep ∉ [0x01, 0x02, 0x03, 0x18, 0x19] ∧ opcode .rotStep ∉ [0x01, 0x03, 0x10, 0x11, 0x18, 0x19] ∧
    opcode .rotStep ∈ [0x01, 0x02, 0x23, 0x31, 0x33, 0x34] := ⟨⟨_, rfl⟩, ⟨_, rfl⟩, by decide⟩

/-- An initialized, keyed engine with a command in progress meets the invariant. -/
theorem witness_EveryStepKeepsInvariant : EngineInvariant (pend 0x10 zeroContext) ∧
    ∃ t, step (pend 0x10 zeroContext) = .next t := by
  refine ⟨⟨?_, fun _ => rfl, ?_, ?_, fun _ => tablesFollowKey_zeroContext, fun _ r hr => ?_, fun h => ?_⟩, ?_⟩
  · unfold ErrcodeLegal
    decide
  · intro i _ _
    exact nth_replicate _ _
  · intro j _ _
    exact nth_replicate _ _
  · have h : (pend 0x10 zeroContext).ncnt = ksNotchCounts (Vector.replicate 32 0) := rfl
    rw [h, nth_ksNotchCounts _ hr, ksNcnt, keyByte, nth_replicate]
    decide
  · cases h
  · exact ⟨_, exec_of_check (i := .cenc) (s := pend 0x10 zeroContext) (check_initialized rfl rfl (by simp))⟩

/-- Two engines that differ in what is hidden: the leftover command word, and a position. -/
theorem witness_HiddenContentsAreUnobservable :
    let t := { State.reset with pending := 5, pos := Vector.replicate 8 7 }
    visible State.reset = visible t ∧ State.reset.pending ≠ t.pending ∧ nth State.reset.pos 0 ≠ nth t.pos 0 :=
  ⟨rfl, by decide, by decide⟩

/-- For every value of the parameters there is a staged engine built with it, and it steps. -/
theorem witness_BuildParametersAreOpen (pairs : PlugParameter) (offset : Nat) :
    let s := { stagedOne with plugPairs := pairs, sboxKeyOffset := offset }
    s.plugPairs = pairs ∧ s.sboxKeyOffset = offset ∧ s.keymask = 0xFF ∧ ∃ t, step s = .next t := ⟨rfl, rfl, rfl, _, rfl⟩

end Sys2Proof.Tests
end

section
/-! PROOFS. The statements of 00_scope: the parameters an engine is built with (R7) and the step that runs the pending
command (R9). -/

namespace Sys2Proof.Proofs.Scope

open Sys2Proof.Machine Sys2Proof.Laws

/-! ### The engine's turn (R312) -/

/-- While busy, the engine's turn is the meaning of the command `PENDING` decodes to (R312). -/
theorem engineTurn_of_decode {s : State} {i : Instr} (hb : s.busy = true) (hd : decode s.pending = some i) :
    engineTurn s = exec i s := by
  simp [engineTurn, completion, fetchCommand, hb, hd]

/-- Settles O6: both forms of the engine's turn reach `engineTurn`, and the schedule is no part of what it decodes. -/
theorem stepRunsDecodedCommand : Obligations.StepRunsDecodedCommand := by
  intro s i hb hd
  refine ⟨fun hi => ?_, fun rest hi => ?_⟩
  · rw [step_drained hi, engineTurn_of_decode hb hd]
  · rw [step_engine hi]
    exact engineTurn_of_decode (s := { s with inputs := rest }) hb hd

/-! ### No step writes the parameters (R7) -/

/-- What an engine is built with: `PLUG_PAIR` and `SBOX_KEY_OFFSET` (R7; log 6, 7). -/
def buildParameters (s : State) : PlugParameter × Nat := (s.plugPairs, s.sboxKeyOffset)

theorem buildParameters_eq_iff {s : State} {pairs : PlugParameter} {offset : Nat} :
    buildParameters s = (pairs, offset) ↔ s.plugPairs = pairs ∧ s.sboxKeyOffset = offset := Prod.mk_inj

/-- No command's effect writes the parameters. -/
theorem effectOf_buildParameters (i : Instr) (s : State) : buildParameters (effectOf i s) = buildParameters s := by
  cases i <;> rfl

theorem exec_keeps_buildParameters {i : Instr} {s t : State} (h : exec i s = .next t) :
    buildParameters t = buildParameters s :=
  command_keeps buildParameters (fun _ _ => rfl) (effectOf_buildParameters i s) (exec_eq_command i s ▸ h)

theorem engineTurn_keeps_buildParameters {s t : State} (h : engineTurn s = .next t) :
    buildParameters t = buildParameters s := by
  rcases engineTurn_cases h with ⟨-, rfl⟩ | ⟨-, -, rfl⟩ | ⟨-, i, -, hx⟩
  · rfl
  · rfl
  · exact exec_keeps_buildParameters hx

/-- No register of the window holds a parameter. -/
theorem hostWrite_buildParameters (off : BitVec 8) (v : Word) (s : State) :
    buildParameters (hostWrite off v s) = buildParameters s := by
  rcases hostWrite_cases off v s with ⟨-, hw⟩ | ⟨-, hw⟩
  · rw [hw]
    rfl
  · rw [hw]
    cases windowReg off <;> rfl

theorem step_keeps_buildParameters {s t : State} (h : step s = .next t) : buildParameters t = buildParameters s := by
  rcases step_cases h with ⟨off, v, rfl⟩ | ⟨off, rfl⟩ | rfl | he
  · exact hostWrite_buildParameters off v (dropInput s)
  · rfl
  · rfl
  · have hd : buildParameters (dropInput s) = buildParameters s := rfl
    exact (engineTurn_keeps_buildParameters he).trans hd

/-! ### `INIT` uses the parameters (R128 to R131) -/

/-- With every key word staged, `INIT` passes every check (R134, R308). -/
theorem check_init_of_staged {s : State} (h : s.keymask = 0xFF) : check .init s = none := by
  simp [check_eq_none_iff, isDiagnostic, badOperand, h]

/-- With every key word staged, `INIT` loads the context of the staged key (R271). -/
theorem exec_init_of_staged {s : State} (h : s.keymask = 0xFF) :
    exec .init s = .next (succeed (loadContext (stagedKey s.key) s)) :=
  exec_of_check (check_init_of_staged h)

/-- Parameters that agree with `f` at every step of every key make the plugboard of `f` (R129). -/
theorem ksPlug_eq_ksPlugWith {f : Key → Nat → Half × Half} {pairs : PlugParameter}
    (h : ∀ k, ∀ i < 149, plugPair pairs k i = f k i) (k : Key) : ksPlug pairs k = ksPlugWith f k :=
  ksPlugWith_congr (h k)

/-- The S-box shuffles with the key bytes from the offset on, wrapping at 32 (R130). -/
theorem ksSbox_eq_shuffle_mod (offset : Nat) (k : Key) :
    ksSbox offset k = shuffle 8 256 fun i => nth k ((offset + i) % 32) := by
  simp only [ksSbox, keyByte, nth_mod]

/-- Settles O60: `exists_plugParameter` tabulates the function, `INIT` builds its tables from the parameters the state
carries, and `step_keeps_buildParameters` says that they stay. -/
theorem buildParametersAreOpen : Obligations.BuildParametersAreOpen := by
  intro f offset
  obtain ⟨pairs, hpairs⟩ := exists_plugParameter f
  refine ⟨pairs, fun s hp ho hk => ⟨_, exec_init_of_staged hk, ?_, ?_, ?_⟩, fun s t hp ho ht => ?_⟩
  · rw [succeed_plug, loadContext_plug, succeed_mkey, loadContext_mkey, hp]
    exact ksPlug_eq_ksPlugWith hpairs _
  · rw [succeed_sbox, loadContext_sbox, succeed_mkey, loadContext_mkey, ho, ksSbox_eq_shuffle_mod]
  · rw [succeed_isbox, succeed_sbox, loadContext_isbox, loadContext_sbox, ksIsbox]
  · rw [← buildParameters_eq_iff, step_keeps_buildParameters ht, buildParameters_eq_iff]
    exact ⟨hp, ho⟩

end Sys2Proof.Proofs.Scope
end

section
/-! PROOFS. The engine's invariant of 10_state (R49): it holds at power-on reset and every step keeps it. -/

namespace Sys2Proof.Proofs.EngineState

open Sys2Proof.Machine Sys2Proof.Safety Sys2Proof.Laws Sys2Proof.Proofs.Scope

/-! ### The invariant and single updates (R49)

The invariant reads the error code, the status flags, the key staging, the master key with what is derived from it, the
notch counts and the chaining registers: a write elsewhere keeps it. -/

/-- A state that differs only in fields the invariant does not read meets it too. -/
theorem invariant_of_unread {s t : State} (hs : EngineInvariant s)
    (h : t = { s with
      din := t.din, dout := t.dout, diag := t.diag, ie := t.ie, err := t.err, ovr := t.ovr, pending := t.pending
      pos := t.pos, notch := t.notch, inputs := t.inputs, readData := t.readData, draws := t.draws }) :
    EngineInvariant t := by
  rw [h]
  exact ⟨hs.errcode, hs.busyNotDone, hs.cregHigh, hs.unmarkedKeys, hs.tables, hs.notchCounts, hs.erased⟩

/-- In an initialized context, results, positions, stream bits and chaining registers may change as long as `CREG[4..15]`
stay zero (R45). -/
theorem invariant_of_chaining {s t : State} (hs : EngineInvariant s) (hi : s.init = true) (hc : CregHighZero t)
    (h : t = { s with
      dout := t.dout, pos := t.pos, creg := t.creg, breg := t.breg, mode := t.mode, cst := t.cst, bst := t.bst }) :
    EngineInvariant t := by
  rw [h] at hc ⊢
  exact ⟨hs.errcode, hs.busyNotDone, hc, hs.unmarkedKeys, hs.tables, hs.notchCounts,
    fun hn => absurd (hi.symm.trans hn) (by decide)⟩

/-- The completion status keeps the invariant when the code it writes is legal: it clears `BUSY` as it sets `DONE` (R312). -/
theorem complete_keeps_invariant {e : BitVec 4} {s : State} (he : e.toNat ∈ [0, 1, 2, 5, 6, 7])
    (hs : EngineInvariant s) : EngineInvariant (complete e s) :=
  ⟨he, fun hb => absurd hb (by simp), hs.cregHigh, hs.unmarkedKeys, hs.tables, hs.notchCounts, hs.erased⟩

/-- The check order reports none of the two reserved codes (R303, R307). -/
theorem check_code_legal {i : Instr} {s : State} {e : Err} (h : check i s = some e) :
    e.code.toNat ∈ [0, 1, 2, 5, 6, 7] := by
  rcases (check_eq_some_iff i s e).mp h with ⟨rfl, -⟩ | ⟨rfl, -⟩ | ⟨rfl, -⟩ | ⟨rfl, -⟩ <;> decide

/-! ### `CREG[4..15]` (R45) -/

theorem zeroBlock_high {s : State} (h : s.creg = zeroBlock) : CregHighZero s := fun i _ _ => by
  rw [h, zeroBlock, nth_replicate]

/-- The character path writes `CREG[0..3]` alone (R240). -/
theorem writeCregLow_high {s t : State} {o : Vector Byte 4} (hs : CregHighZero s) (h : t.creg = writeCregLow s.creg o) :
    CregHighZero t := fun i hl hi => by
  rw [h, nth_writeCregLow _ _ hi, if_neg (by omega), hs i hl hi]

/-! ### Notch counts (R39) -/

/-- A derived count is in 1..7 (R124). -/
theorem ksNcnt_bounds (k : Key) (r : Nat) : 1 ≤ (ksNcnt k r).toNat ∧ (ksNcnt k r).toNat ≤ 7 := by
  simp only [ksNcnt, BitVec.toNat_ofNat]
  omega

/-- Writing a count in 1..7 keeps the counts legal (R162). -/
theorem notchCounts_upd {s t : State} {sel : Nat} {c : BitVec 3} (hs : NotchCountsLegal s) (hsel : sel < 8)
    (hc : 1 ≤ c.toNat) (ht : t.ncnt = upd s.ncnt sel c) : NotchCountsLegal t := fun r hr => by
  rw [ht, nth_upd _ _ hsel hr]
  split_ifs
  · omega
  · exact hs r hr

/-- `WR_NCNT` passes the operand check exactly with a rotor in 0..7 and a count in 1..7 (R95). -/
theorem badOperand_wrNcnt_iff (sel : Nat) (v : Word) :
    badOperand (.wrNcnt sel) v = false ↔ sel < 8 ∧ 1 ≤ v.toNat ∧ v.toNat ≤ 7 := by
  simp [badOperand]
  omega

/-! ### The context commands (R271 to R273) -/

/-- `INIT`'s effect brings the invariant about in the context it loads (R136, R271). -/
theorem loadContext_keeps_invariant {s : State} (k : Key) (hs : EngineInvariant s) :
    EngineInvariant (loadContext k s) where
  errcode := hs.errcode
  busyNotDone := hs.busyNotDone
  cregHigh := zeroBlock_high rfl
  unmarkedKeys := fun j _ _ => nth_replicate 0 j
  tables := fun _ => ⟨rfl, rfl, rfl, rfl, rfl⟩
  notchCounts := fun _ r hr => by
    rw [loadContext_ncnt, nth_ksNotchCounts k hr]
    exact ksNcnt_bounds k r
  erased := fun hn => absurd hn (by simp)

/-- `TEARDOWN`'s effect erases the secrets (R273). -/
theorem destroyContext_keeps_invariant {s : State} (hs : EngineInvariant s) : EngineInvariant (destroyContext s) where
  errcode := hs.errcode
  busyNotDone := hs.busyNotDone
  cregHigh := zeroBlock_high rfl
  unmarkedKeys := fun j _ _ => nth_replicate 0 j
  tables := fun hi => absurd hi (by simp)
  notchCounts := fun hi => absurd hi (by simp)
  erased := fun _ => ⟨rfl, rfl, rfl, rfl, rfl, rfl⟩

/-! ### Every completion keeps the invariant -/

/-- A command that passed its checks is `INIT`, or runs in an initialized context (R26, R302). -/
theorem init_of_check {i : Instr} {s : State} (h : check i s = none) (hi : i ≠ .init) : s.init = true := by
  obtain ⟨-, hinit, -, -⟩ := (check_eq_none_iff i s).mp h
  exact hinit hi

/-- The effect of a command that passed its checks keeps the invariant: readbacks write results alone, the unit commands and
`MSGRST` act on the message state of an initialized context, and `WR_NCNT` has a legal count. -/
theorem effectOf_keeps_invariant {i : Instr} {s : State} (hs : EngineInvariant s) (h : check i s = none) :
    EngineInvariant (effectOf i s) := by
  cases i with
  | init => exact loadContext_keeps_invariant _ hs
  | teardown => exact destroyContext_keeps_invariant hs
  | msgrst => exact invariant_of_chaining hs (init_of_check h (by simp)) (zeroBlock_high rfl) rfl
  | cenc =>
    have hc : CregHighZero (encryptChar s) := writeCregLow_high hs.cregHigh (encryptChar_creg s)
    exact invariant_of_chaining hs (init_of_check h (by simp)) hc rfl
  | cdec =>
    have hc : CregHighZero (decryptChar s) := writeCregLow_high hs.cregHigh (decryptChar_creg s)
    exact invariant_of_chaining hs (init_of_check h (by simp)) hc rfl
  | benc | bdec => exact invariant_of_chaining hs (init_of_check h (by simp)) hs.cregHigh rfl
  | wrNcnt sel =>
    obtain ⟨-, hinit, hop, -⟩ := (check_eq_none_iff _ s).mp h
    obtain ⟨hsel, hlow, hhigh⟩ := (badOperand_wrNcnt_iff sel _).mp hop
    have hi : s.init = true := hinit (by simp)
    refine ⟨hs.errcode, hs.busyNotDone, hs.cregHigh, hs.unmarkedKeys, hs.tables, fun _ => ?_, hs.erased⟩
    refine notchCounts_upd (hs.notchCounts hi) hsel ?_ rfl
    rw [BitVec.toNat_setWidth]
    omega
  | pbApply | rotFwd | rotBwd | rotStep | btFwd | btInv | btSub | btShr | btMix | btArk | btIsub | btIshr | btImix
  | rdPos | wrPos | rdNotch | wrNotch | rdRfwd | rdRinv | rdPlug | rdSbox | rdIsbox | rdRkey | rdCreg | rdBreg =>
    exact invariant_of_unread hs rfl

theorem exec_keeps_invariant {i : Instr} {s t : State} (hs : EngineInvariant s) (h : exec i s = .next t) :
    EngineInvariant t := by
  rcases exec_cases h with ⟨e, hc, rfl⟩ | ⟨hc, rfl⟩
  · exact complete_keeps_invariant (check_code_legal hc) hs
  · exact complete_keeps_invariant (by decide) (effectOf_keeps_invariant hs hc)

theorem engineTurn_keeps_invariant {s t : State} (hs : EngineInvariant s) (h : engineTurn s = .next t) :
    EngineInvariant t := by
  rcases engineTurn_cases h with ⟨-, rfl⟩ | ⟨-, -, rfl⟩ | ⟨-, i, -, hx⟩
  · exact hs
  · exact complete_keeps_invariant (by decide) hs
  · exact exec_keeps_invariant hs hx

/-! ### Every step keeps the invariant -/

/-- Staging a key word marks it, and leaves the other words and marks (R33, R70). -/
theorem stageKey_keeps_unmarked {s t : State} (hs : UnmarkedKeysZero s) (j : Fin 8) (v : Word)
    (hk : t.key = s.key.set j v) (hm : t.keymask = s.keymask ||| (1#8 <<< j.val)) : UnmarkedKeysZero t := by
  intro i hi hu
  rw [hm, BitVec.getLsbD_or, Bool.or_eq_false_iff] at hu
  obtain ⟨hold, hnew⟩ := hu
  have hne : j.val ≠ i := by
    rintro rfl
    simp at hnew
  rw [hk, nth_of_lt _ hi, Vector.getElem_set_ne _ _ hne, ← nth_of_lt _ hi]
  exact hs i hi hold

theorem writeIdle_keeps_invariant {s : State} (r : WindowReg) (v : Word) (hb : s.busy = false)
    (hs : EngineInvariant s) : EngineInvariant (writeIdle r v s) := by
  cases r with
  | status =>
    exact ⟨hs.errcode, fun hbusy => absurd (hb.symm.trans hbusy) (by decide), hs.cregHigh, hs.unmarkedKeys, hs.tables,
      hs.notchCounts, hs.erased⟩
  | cmd => exact ⟨hs.errcode, fun _ => rfl, hs.cregHigh, hs.unmarkedKeys, hs.tables, hs.notchCounts, hs.erased⟩
  | key j =>
    exact ⟨hs.errcode, hs.busyNotDone, hs.cregHigh, stageKey_keeps_unmarked hs.unmarkedKeys j v rfl rfl, hs.tables,
      hs.notchCounts, hs.erased⟩
  | ctrl | din | id | errcode | dout | reserved => exact invariant_of_unread hs rfl

theorem hostWrite_keeps_invariant {s : State} (off : BitVec 8) (v : Word) (hs : EngineInvariant s) :
    EngineInvariant (hostWrite off v s) := by
  rcases hostWrite_cases off v s with ⟨-, hw⟩ | ⟨hb, hw⟩
  · rw [hw]
    exact invariant_of_unread hs rfl
  · rw [hw]
    exact writeIdle_keeps_invariant _ v hb hs

/-- Power-on reset meets the invariant, whatever the state before it (R50). -/
theorem powerOn_invariant (s : State) : EngineInvariant (powerOn s) where
  errcode := by simp [ErrcodeLegal, State.reset]
  busyNotDone := fun hb => absurd hb (by simp [State.reset])
  cregHigh := zeroBlock_high rfl
  unmarkedKeys := fun j _ _ => nth_replicate 0 j
  tables := fun hi => absurd hi (by simp [State.reset])
  notchCounts := fun hi => absurd hi (by simp [State.reset])
  erased := fun _ => ⟨rfl, rfl, rfl, rfl, rfl, rfl⟩

/-- Settles O57: the reset state is what power-on reset makes of itself. -/
theorem resetStateSatisfiesInvariant : Obligations.ResetStateSatisfiesInvariant :=
  powerOn_invariant State.reset

/-- Settles O58: each of the four things a step can do keeps the invariant. -/
theorem everyStepKeepsInvariant : Obligations.EveryStepKeepsInvariant := by
  intro s t hs h
  have hd : EngineInvariant (dropInput s) := invariant_of_unread hs rfl
  rcases step_cases h with ⟨off, v, rfl⟩ | ⟨off, rfl⟩ | rfl | he
  · exact hostWrite_keeps_invariant off v hd
  · exact invariant_of_unread hd rfl
  · exact powerOn_invariant _
  · exact engineTurn_keeps_invariant hd he

end Sys2Proof.Proofs.EngineState
end

section
/-! PROOFS. One step by the head of the schedule (20_memory R80): which agent's turn it is fixes what the step does. -/

namespace Sys2Proof.Proofs.Turn

open Sys2Proof.Machine Sys2Proof.Laws

/-- What the schedule's head makes of the state; without a head it is the engine's turn (log 1). -/
def turn (head : Option Input) (s : State) : Host.Outcome State Fault Refusal :=
  match head with
  | some (.write off v) => .next (hostWrite off v s)
  | some (.read off) => .next (hostRead off s)
  | some .powerOnReset => .next (powerOn s)
  | some .engine => engineTurn s
  | none => engineTurn s

/-- A step is the turn of the schedule's head, on the state without it. -/
theorem step_eq_turn (s : State) : step s = turn s.inputs.head? (dropInput s) := by
  cases hi : s.inputs with
  | nil =>
    have hs : dropInput s = s := by
      rw [dropInput, hi, List.tail_nil, ← hi]
    rw [step_drained hi, hs]
    rfl
  | cons x rest =>
    have hs : dropInput s = { s with inputs := rest } := by rw [dropInput, hi, List.tail_cons]
    rw [hs]
    cases x with
    | write off v => exact step_write hi
    | read off => exact step_read hi
    | engine => exact step_engine hi
    | powerOnReset => exact step_reset hi

theorem exec_proceeds (i : Instr) (s : State) : ∃ t, exec i s = .next t := by
  rw [exec_eq_command]
  cases hc : check i s with
  | none => exact ⟨_, command_of_none _ hc⟩
  | some e => exact ⟨_, command_of_some _ hc⟩

theorem engineTurn_proceeds (s : State) : ∃ t, engineTurn s = .next t := by
  unfold engineTurn completion
  split_ifs
  · split
    · exact exec_proceeds _ s
    · exact ⟨_, rfl⟩
  · exact ⟨_, rfl⟩

/-- Nothing stops the engine (R311, R316). -/
theorem step_proceeds (s : State) : Safety.Proceeds s := by
  rw [Safety.Proceeds, step_eq_turn]
  match s.inputs.head? with
  | some (.write _ _) | some (.read _) | some .powerOnReset => exact ⟨_, rfl⟩
  | some .engine | none => exact engineTurn_proceeds _

end Sys2Proof.Proofs.Turn
end

section
/-! PROOFS. The noninterference statement of 10_state: what an uninitialized engine holds in its tables and rotor state, and
`PENDING` while idle, reach no host access (R47, R51). Each operation is compared on a state and on its visible part. -/

namespace Sys2Proof.Proofs.Hidden

open Sys2Proof.Machine Sys2Proof.Safety Sys2Proof.Laws Sys2Proof.Proofs.Scope Sys2Proof.Proofs.EngineState
  Sys2Proof.Proofs.Turn

/-! ### The visible part of a state -/

theorem visible_visible (s : State) : visible (visible s) = visible s := by
  cases hi : s.init <;> cases hb : s.busy <;> simp [visible, hi, hb]

/-- A busy initialized engine hides nothing. -/
theorem visible_of_init_of_busy {s : State} (hi : s.init = true) (hb : s.busy = true) : visible s = s := by
  rcases s with ⟨⟩
  simp_all [visible]

/-- The operation does not reveal the hidden contents: what shows after it depends on what showed before alone. -/
def Blind (f : State → State) : Prop := ∀ s, visible (f (visible s)) = visible (f s)

/-- An operation that commutes with blanking is blind. -/
theorem blind_of_comm {f : State → State} (h : ∀ s, f (visible s) = visible (f s)) : Blind f := fun s => by
  rw [h, visible_visible]

/-! ### Host accesses and reset (R60 to R72, R340) -/

theorem readValue_visible (r : WindowReg) (s : State) : readValue r (visible s) = readValue r s := by
  cases r <;> rfl

theorem readDraws_visible (r : WindowReg) (s : State) : readDraws r (visible s) = readDraws r s := by
  cases r <;> rfl

theorem blind_hostRead (off : BitVec 8) : Blind (hostRead off) := blind_of_comm fun s => by
  simp only [hostRead, readValue_visible, readDraws_visible]
  rfl

/-- Acceptance shows the word it latches, whatever `PENDING` held (R47, R68). -/
theorem blind_accept (v : Word) : Blind (accept v) := fun s => by
  cases hi : s.init <;> simp [visible, accept, hi]

theorem blind_writeIdle (r : WindowReg) (v : Word) : Blind (writeIdle r v) := by
  cases r with
  | cmd => exact blind_accept v
  | ctrl | status | din | key | id | errcode | dout | reserved => exact blind_of_comm fun _ => rfl

theorem blind_hostWrite (off : BitVec 8) (v : Word) : Blind (hostWrite off v) := fun s => by
  rcases hostWrite_cases off v s with ⟨hb, hw⟩ | ⟨hb, hw⟩ <;>
    rcases hostWrite_cases off v (visible s) with ⟨hb', hw'⟩ | ⟨hb', hw'⟩
  · rw [hw, hw']
    exact visible_visible { s with ovr := true }
  · exact absurd (hb.symm.trans hb') (by decide)
  · exact absurd (hb.symm.trans hb') (by decide)
  · rw [hw, hw', blind_writeIdle]

theorem blind_powerOn : Blind powerOn := fun _ => rfl

/-! ### Completion (R312) -/

theorem blind_fail (e : Err) : Blind (fail e) := fun s => by
  cases hi : s.init <;> simp [visible, fail, complete, hi]

/-- `INIT` overwrites every hidden field (R136, R271). -/
theorem blind_init : Blind fun s => succeed (initContext s) := fun _ => rfl

/-- The checks of R308 read nothing hidden. -/
theorem check_visible (i : Instr) (s : State) : check i (visible s) = check i s := rfl

/-- In an uninitialized engine a command fails, or it is `INIT`. -/
theorem exec_visible {i : Instr} {s t : State} (hi : s.init = false) (h : exec i s = .next t) :
    ∃ u, exec i (visible s) = .next u ∧ visible u = visible t := by
  rw [exec_eq_command]
  rcases exec_cases h with ⟨e, hc, rfl⟩ | ⟨hc, rfl⟩
  · exact ⟨_, command_of_some _ ((check_visible i s).trans hc), blind_fail e s⟩
  · obtain rfl : i = .init := by
      by_contra hn
      exact absurd (hi.symm.trans (init_of_check hc hn)) (by decide)
    exact ⟨_, command_of_none _ ((check_visible .init s).trans hc), blind_init s⟩

theorem pending_visible {s : State} (hb : s.busy = true) : (visible s).pending = s.pending := by
  simp [visible, hb]

/-- The engine's turn on the visible part: while idle it waits, while busy `PENDING` is visible and an initialized engine
hides nothing. -/
theorem engineTurn_visible {s t : State} (h : engineTurn s = .next t) :
    ∃ u, engineTurn (visible s) = .next u ∧ visible u = visible t := by
  rcases engineTurn_cases h with ⟨hb, rfl⟩ | ⟨hb, hd, rfl⟩ | ⟨hb, i, hd, hx⟩
  · exact ⟨visible t, by simp [engineTurn, visible, hb], visible_visible t⟩
  · refine ⟨fail .illegalCommand (visible s), ?_, blind_fail _ s⟩
    rw [← pending_visible hb] at hd
    simp [engineTurn, completion, fetchCommand, hd, show (visible s).busy = true from hb]
  · cases hi : s.init with
    | true => exact ⟨t, by rw [visible_of_init_of_busy hi hb, h], rfl⟩
    | false =>
      rw [← pending_visible hb] at hd
      rw [engineTurn_of_decode (s := visible s) hb hd]
      exact exec_visible hi hx

/-! ### One step -/

theorem turn_visible {head : Option Input} {s t : State} (h : turn head s = .next t) :
    ∃ u, turn head (visible s) = .next u ∧ visible u = visible t := by
  match head, h with
  | some (.write off v), rfl => exact ⟨_, rfl, blind_hostWrite off v s⟩
  | some (.read off), rfl => exact ⟨_, rfl, blind_hostRead off s⟩
  | some .powerOnReset, rfl => exact ⟨_, rfl, blind_powerOn s⟩
  | some .engine, h | none, h => exact engineTurn_visible h

/-- The visible part of a state steps as the state does: neither the schedule nor any turn reveals more. -/
theorem step_visible {s t : State} (h : step s = .next t) :
    ∃ u, step (visible s) = .next u ∧ visible u = visible t := by
  rw [step_eq_turn] at h ⊢
  exact turn_visible h

/-- Settles O59: both states step as their common visible part does, and the word read and `irq` are visible. -/
theorem hiddenContentsAreUnobservable : Obligations.HiddenContentsAreUnobservable := by
  intro s t hst
  obtain ⟨s', hs⟩ := step_proceeds s
  obtain ⟨t', ht⟩ := step_proceeds t
  obtain ⟨u, hu, hus⟩ := step_visible hs
  obtain ⟨w, hw, hwt⟩ := step_visible ht
  have huw : u = w := Host.Outcome.next.inj (by rw [← hu, ← hw, hst])
  have hv : visible s' = visible t' := by rw [← hus, ← hwt, huw]
  exact ⟨s', t', hs, ht, hv, (congrArg State.readData hv :), (congrArg irq hv :)⟩

end Sys2Proof.Proofs.Hidden
end

section
/-! PROOFS. The lifecycle of 10_state: which steps change `STATUS.INIT` (R26, R270). -/

namespace Sys2Proof.Proofs.Lifecycle

open Sys2Proof.Machine Sys2Proof.Laws Sys2Proof.Proofs.Turn

/-- Only the effects of `INIT` and `TEARDOWN` write the flag. -/
theorem effectOf_init_eq {i : Instr} (s : State) (hi : i ≠ .init) (ht : i ≠ .teardown) :
    (effectOf i s).init = s.init := by
  cases i with
  | init => exact absurd rfl hi
  | teardown => exact absurd rfl ht
  | _ => rfl

/-- How the engine's turn acts on the flag: it raises it with `INIT`, with every key word staged, clears it with `TEARDOWN`,
or keeps it. -/
theorem engineTurn_init_cases {s t : State} (h : engineTurn s = .next t) :
    t.init = s.init ∨
    (t.init = true ∧ s.busy = true ∧ decode s.pending = some .init ∧ s.keymask = 0xFF) ∨
    (t.init = false ∧ s.busy = true ∧ decode s.pending = some .teardown) := by
  rcases engineTurn_cases h with ⟨-, rfl⟩ | ⟨-, -, rfl⟩ | ⟨hb, i, hd, hx⟩
  · exact .inl rfl
  · exact .inl rfl
  rcases exec_cases hx with ⟨e, -, rfl⟩ | ⟨hc, rfl⟩
  · exact .inl rfl
  by_cases hi : i = .init
  · subst hi
    obtain ⟨-, -, -, hkeys⟩ := (check_eq_none_iff _ s).mp hc
    exact .inr (.inl ⟨rfl, hb, hd, hkeys rfl⟩)
  by_cases ht : i = .teardown
  · subst ht
    exact .inr (.inr ⟨rfl, hb, hd⟩)
  · exact .inl (effectOf_init_eq s hi ht)

/-- The flag is read-only to the host (R71). -/
theorem hostWrite_init (off : BitVec 8) (v : Word) (s : State) : (hostWrite off v s).init = s.init := by
  rcases hostWrite_cases off v s with ⟨-, hw⟩ | ⟨-, hw⟩
  · rw [hw]
  · rw [hw]
    cases windowReg off <;> rfl

/-- How a step acts on the flag: as the engine's turn does, or by a power-on reset. -/
theorem turn_init_cases {head : Option Input} {s t : State} (h : turn head s = .next t) :
    t.init = s.init ∨
    (t.init = true ∧ s.busy = true ∧ decode s.pending = some .init ∧ s.keymask = 0xFF) ∨
    (t.init = false ∧ s.busy = true ∧ decode s.pending = some .teardown) ∨
    (t.init = false ∧ head = some .powerOnReset) := by
  match head, h with
  | some (.write off v), rfl => exact .inl (hostWrite_init off v s)
  | some (.read _), rfl => exact .inl rfl
  | some .powerOnReset, rfl => exact .inr (.inr (.inr ⟨rfl, rfl⟩))
  | some .engine, h | none, h => exact (engineTurn_init_cases h).imp_right (.imp_right .inl)

/-- Settles O30: of the four ways a step acts on the flag, one raises it and two clear it. -/
theorem onlyInitAndTeardownChangeTheLifecycle : Obligations.OnlyInitAndTeardownChangeTheLifecycle := by
  intro s t h
  rw [step_eq_turn] at h
  rcases turn_init_cases h with hk | ⟨ht, hrise⟩ | ⟨ht, hfall⟩ | ⟨ht, hreset⟩
  · rw [hk]
    exact ⟨fun hf hr => absurd (hf.symm.trans hr) (by decide), fun hr hf => absurd (hf.symm.trans hr) (by decide)⟩
  · exact ⟨fun _ _ => hrise, fun _ hf => absurd (ht.symm.trans hf) (by decide)⟩
  · exact ⟨fun _ hr => absurd (ht.symm.trans hr) (by decide), fun _ _ => .inl hfall⟩
  · exact ⟨fun _ hr => absurd (ht.symm.trans hr) (by decide), fun _ _ => .inr hreset⟩

end Sys2Proof.Proofs.Lifecycle
end

section
/-! PROOFS. The registers of 10_state: the words host reads return (R64) and the values power-on reset gives (R50). -/

namespace Sys2Proof.Proofs.Registers

open Sys2Proof.Machine Sys2Proof.Laws

/-! ### The register words, bit by bit (R24, R25, R34)

`CTRL` and `STATUS` are flags appended one by one below a wider word, the lowest bit last. -/

theorem append_bit_getLsbD_zero {n : Nat} (x : BitVec n) (b : Bool) : (x ++ bit b).getLsbD 0 = b := by
  rw [BitVec.getLsbD_append]
  cases b <;> rfl

theorem append_bit_getLsbD_succ {n : Nat} (x : BitVec n) (b : Bool) (i : Nat) :
    (x ++ bit b).getLsbD (i + 1) = x.getLsbD i := by
  simp [BitVec.getLsbD_append]

theorem ctrlWord_diag (s : State) : (ctrlWord s).getLsbD 0 = s.diag := append_bit_getLsbD_zero _ _

theorem ctrlWord_ie (s : State) : (ctrlWord s).getLsbD 1 = s.ie := by
  simp only [ctrlWord, append_bit_getLsbD_zero, append_bit_getLsbD_succ]

theorem ctrlWord_high (s : State) {i : Nat} (hi : 2 ≤ i) : (ctrlWord s).getLsbD i = false := by
  obtain ⟨k, rfl⟩ := Nat.exists_eq_add_of_le' hi
  simp only [ctrlWord, append_bit_getLsbD_succ]
  exact BitVec.getLsbD_zero

theorem statusWord_flags (s : State) :
    (statusWord s).getLsbD 0 = s.init ∧ (statusWord s).getLsbD 1 = s.busy ∧ (statusWord s).getLsbD 2 = s.done ∧
    (statusWord s).getLsbD 3 = s.err ∧ (statusWord s).getLsbD 4 = s.ovr ∧ (statusWord s).getLsbD 5 = s.mode ∧
    (statusWord s).getLsbD 6 = s.cst ∧ (statusWord s).getLsbD 7 = s.bst := by
  simp only [statusWord, append_bit_getLsbD_zero, append_bit_getLsbD_succ, and_self]

/-- `STATUS` above its eight flags is `KEYMASK`, with zeros above it (R25). -/
theorem statusWord_high (s : State) (j : Nat) : (statusWord s).getLsbD (8 + j) = s.keymask.getLsbD j := by
  have h : (statusWord s).getLsbD (8 + j) = ((0 : BitVec 16) ++ s.keymask).getLsbD j := by
    rw [Nat.add_comm]
    simp only [statusWord, append_bit_getLsbD_succ]
  rw [h, BitVec.getLsbD_append]
  split_ifs with hj
  · rfl
  · rw [BitVec.getLsbD_of_ge s.keymask j (by omega)]
    exact BitVec.getLsbD_zero

theorem errcodeWord_toNat (s : State) : (errcodeWord s).toNat = s.errcode.toNat := by
  rw [errcodeWord, BitVec.toNat_setWidth]
  have := s.errcode.isLt
  omega

/-! ### The map by ranges of word offsets (R62, R63) -/

theorem windowReg_din {off : BitVec 8} {k : Nat} (hk : k < 4) (h : off.toNat / 4 = 8 + k) :
    windowReg off = .din ⟨k, hk⟩ := by
  rw [windowReg_of_div h]
  match k, hk with
  | 0, _ | 1, _ | 2, _ | 3, _ => rfl

theorem windowReg_dout {off : BitVec 8} {k : Nat} (hk : k < 4) (h : off.toNat / 4 = 12 + k) :
    windowReg off = .dout ⟨k, hk⟩ := by
  rw [windowReg_of_div h]
  match k, hk with
  | 0, _ | 1, _ | 2, _ | 3, _ => rfl

/-- Between `CMD` and `DIN` the offsets are reserved. -/
theorem windowReg_gap {off : BitVec 8} (hl : 5 ≤ off.toNat / 4) (hu : off.toNat / 4 ≤ 7) : windowReg off = .reserved := by
  unfold windowReg
  split <;> simp <;> omega

/-- From word offset 16 on lie the write-only key words and reserved offsets. -/
theorem windowReg_high {off : BitVec 8} (h : 16 ≤ off.toNat / 4) :
    (∃ j, windowReg off = .key j) ∨ windowReg off = .reserved := by
  unfold windowReg
  split <;> simp <;> omega

/-! ### Reads -/

/-- Settles O12: the offset names the register, and the word read is that register's. -/
theorem readsReturnTheRegisters : Obligations.ReadsReturnTheRegisters := by
  intro s off rest hi
  refine ⟨_, step_read hi, rfl, ?_⟩
  rw [hostRead_readData]
  refine ⟨fun h => ?id, fun h => ?ctrl, fun h => ?status, fun h => ?errcode, fun h => ?cmd, fun hl hu => ?gap,
    fun k hk h => ?din, fun k hk h hb => ?dout, fun h => ?high⟩
  case id =>
    rw [windowReg_of_div h]
    rfl
  case ctrl =>
    rw [windowReg_of_div h]
    exact ⟨ctrlWord_diag _, ctrlWord_ie _, fun _ => ctrlWord_high _⟩
  case status =>
    rw [windowReg_of_div h]
    obtain ⟨hinit, hbusy, hdone, herr, hovr, hmode, hcst, hbst⟩ := statusWord_flags { s with inputs := rest }
    refine ⟨hinit, hbusy, hdone, herr, hovr, hmode, hcst, hbst, fun j _ => statusWord_high _ j, fun i hge => ?_⟩
    obtain ⟨j, rfl⟩ := Nat.exists_eq_add_of_le (show 8 ≤ i by omega)
    exact (statusWord_high _ j).trans (BitVec.getLsbD_of_ge _ j (by omega))
  case errcode =>
    rw [windowReg_of_div h]
    exact errcodeWord_toNat _
  case cmd =>
    rw [windowReg_of_div h]
    rfl
  case gap =>
    rw [windowReg_gap hl hu]
    rfl
  case din =>
    rw [windowReg_din hk h, nth_of_lt _ hk]
    rfl
  case dout =>
    rw [windowReg_dout hk h, nth_of_lt _ hk, readValue, if_neg (by simp [hb])]
    rfl
  case high =>
    rcases windowReg_high h with ⟨j, hr⟩ | hr <;> rw [hr] <;> rfl

/-! ### Power-on reset -/

/-- Settles O21: each register is an array of zeros or a flag of `State.reset` (R50). -/
theorem powerOnResetRestoresResetValues : Obligations.PowerOnResetRestoresResetValues := by
  intro s rest hi
  refine ⟨_, step_reset hi, fun k _ => ⟨nth_replicate 0 k, nth_replicate 0 k⟩, rfl, rfl, rfl, rfl, rfl, rfl, rfl, rfl,
    rfl, rfl, rfl, rfl, fun j _ => nth_replicate 0 j, fun j _ => nth_replicate 0 j,
    fun i _ => ⟨nth_replicate 0 i, nth_replicate 0 i⟩, rfl⟩

end Sys2Proof.Proofs.Registers
end

section
/-! PROOFS. The register window of 20_memory: host reads and writes by the register they reach (R60 to R72), and what host
accesses leave alone while a command is in progress (R64, R65, R77). -/

namespace Sys2Proof.Proofs.Memory

open Sys2Proof.Machine Sys2Proof.Safety Sys2Proof.Laws Sys2Proof.Proofs.Registers

/-! ### Host writes by `BUSY` (R65 to R71) -/

theorem hostWrite_of_busy {s : State} (off : BitVec 8) (v : Word) (hb : s.busy = true) :
    hostWrite off v s = { s with ovr := true } := by
  rw [hostWrite, if_pos hb]

theorem hostWrite_of_idle {s : State} (off : BitVec 8) (v : Word) (hb : s.busy = false) :
    hostWrite off v s = writeIdle (windowReg off) v s := by
  rw [hostWrite, if_neg (by simp [hb])]

theorem step_write_busy {s : State} {off : BitVec 8} {v : Word} {rest : List Input} (hi : s.inputs = .write off v :: rest)
    (hb : s.busy = true) : step s = .next { s with inputs := rest, ovr := true } := by
  rw [step_write hi, hostWrite_of_busy off v (s := { s with inputs := rest }) hb]

theorem step_write_idle {s : State} {off : BitVec 8} {v : Word} {rest : List Input} (hi : s.inputs = .write off v :: rest)
    (hb : s.busy = false) : step s = .next (writeIdle (windowReg off) v { s with inputs := rest }) := by
  rw [step_write hi, hostWrite_of_idle off v (s := { s with inputs := rest }) hb]

/-! ### Accesses while a command is in progress (R64, R65, R77) -/

/-- One access while busy: a write sets `OVR`, a read leaves the model's `readData` and `draws` at some values. -/
theorem step_access_busy {s : State} {x : Input} {rest : List Input} (hb : s.busy = true) (hi : s.inputs = x :: rest)
    (hx : isAccess x = true) :
    ∃ d n, step s = .next { s with inputs := rest, ovr := s.ovr || isWrite x, readData := d, draws := n } := by
  cases x with
  | write off v => exact ⟨s.readData, s.draws, by rw [step_write_busy hi hb, isWrite, Bool.or_true]⟩
  | read off => exact ⟨_, _, by rw [step_read hi, isWrite, Bool.or_false]; rfl⟩
  | engine | powerOnReset => exact absurd hx (by decide)

/-- Any sequence of accesses while busy. The engine stays busy, so each access meets the rule of one. -/
theorem runsTo_accesses_busy {l rest : List Input} {s : State} (hb : s.busy = true) (hi : s.inputs = l ++ rest)
    (hl : ∀ x ∈ l, isAccess x = true) :
    ∃ d n, RunsTo l.length s { s with inputs := rest, ovr := s.ovr || l.any isWrite, readData := d, draws := n } := by
  induction l generalizing s with
  | nil =>
    rw [List.nil_append] at hi
    refine ⟨s.readData, s.draws, ?_⟩
    rw [List.any_nil, Bool.or_false, ← hi]
    exact runsTo_zero s
  | cons x l ih =>
    obtain ⟨hx, hl⟩ := List.forall_mem_cons.mp hl
    obtain ⟨d, n, hstep⟩ := step_access_busy hb hi hx
    obtain ⟨d', n', hrun⟩ :=
      ih (s := { s with inputs := l ++ rest, ovr := s.ovr || isWrite x, readData := d, draws := n }) hb rfl hl
    rw [Bool.or_assoc, ← List.any_cons] at hrun
    exact ⟨d', n', runsTo_succ hstep hrun⟩

/-- Settles O10: the run of the accesses, with the words read and the draws left open. -/
theorem accessesWhileBusyLeaveTheCommand : Obligations.AccessesWhileBusyLeaveTheCommand := by
  intro s l rest hb hi hl
  obtain ⟨d, n, hrun⟩ := runsTo_accesses_busy hb hi hl
  exact ⟨_, hrun, rfl⟩

/-- Settles O11: `BUSY` is looked at before the offset. -/
theorem writeWhileBusyIsDiscarded : Obligations.WriteWhileBusyIsDiscarded :=
  fun _ _ _ _ hi hb => step_write_busy hi hb

theorem hostRead_dout_busy {s : State} {off : BitVec 8} {k : Fin 4} (hr : windowReg off = .dout k) (hb : s.busy = true) :
    hostRead off s = { s with readData := Config.freeDout s.draws, draws := s.draws + 1 } := by
  simp only [hostRead, hr, readValue, readDraws, hb, if_true]

/-- Settles O13: the offset names an entry of `DOUT`, whose read while busy is a draw. -/
theorem busyDoutReadIsFree : Obligations.BusyDoutReadIsFree := by
  intro s off rest hi hb hl hu
  obtain ⟨k, hk⟩ := Nat.exists_eq_add_of_le hl
  have hr : windowReg off = .dout ⟨k, by omega⟩ := windowReg_dout (by omega) hk
  rw [step_read hi, hostRead_dout_busy (s := { s with inputs := rest }) hr hb]

/-! ### Idle writes to the flags and to `CMD` (R66 to R68) -/

/-- Settles O14: word offset 1 is `CTRL`. -/
theorem writeCtrlSetsDiagAndIe : Obligations.WriteCtrlSetsDiagAndIe := by
  intro s off v rest hi hb ho
  rw [step_write_idle hi hb, windowReg_of_div ho]
  rfl

/-- A write to `STATUS` clears a flag where the bit written is 1 (R67). -/
theorem writeIdle_status (v : Word) (s : State) :
    writeIdle .status v s = { s with
      done := if v.getLsbD 2 then false else s.done
      err := if v.getLsbD 3 then false else s.err
      ovr := if v.getLsbD 4 then false else s.ovr } := by
  simp only [writeIdle, Bool.if_false_left, Bool.decide_eq_true, Bool.and_comm]

/-- Settles O15: word offset 2 is `STATUS`, and each of its three flags is cleared by its own bit. -/
theorem writeStatusClearsFlags : Obligations.WriteStatusClearsFlags := by
  intro s off v rest hi hb ho
  have hr : windowReg off = .status := windowReg_of_div ho
  rw [step_write_idle hi hb, hr, writeIdle_status]

/-- Settles O16: word offset 4 is `CMD`, and a write to it is `accept`. -/
theorem writeCmdAcceptsTheWord : Obligations.WriteCmdAcceptsTheWord := by
  intro s off v rest hi hb ho
  rw [step_write_idle hi hb, windowReg_of_div ho]
  rfl

/-! ### Idle writes to `DIN` and to the key staging (R69, R70) -/

/-- A register write is the array update of R12. -/
theorem set_eq_upd {α : Type} {n : Nat} [NeZero n] (v : Vector α n) (i : Fin n) (a : α) : v.set i a = upd v i a := by
  simp only [upd, Nat.mod_eq_of_lt i.isLt]

/-- Settles O17: the register written is an array entry, and the others stay. -/
theorem writeDinWritesOneRegister : Obligations.WriteDinWritesOneRegister := by
  intro s off v rest k hi hb hk ho
  refine ⟨_, step_write_idle hi hb, ?_⟩
  rw [windowReg_din hk ho, writeIdle, set_eq_upd]
  exact ⟨nth_upd_same _ v hk, fun j hj hne => nth_upd_ne _ v hk hj hne, rfl⟩

/-- Word offsets 16 to 23 are the key staging (R62). -/
theorem windowReg_key {off : BitVec 8} {j : Nat} (hj : j < 8) (h : off.toNat / 4 = 16 + j) :
    windowReg off = .key ⟨j, hj⟩ := by
  rw [windowReg_of_div h]
  match j, hj with
  | 0, _ | 1, _ | 2, _ | 3, _ | 4, _ | 5, _ | 6, _ | 7, _ => rfl

/-- Marking bit `j` of `KEYMASK`, bit by bit (R33, R70). -/
theorem getLsbD_mark (m : BitVec 8) {i j : Nat} (hj : j < 8) :
    (m ||| (1#8 <<< j)).getLsbD i = (m.getLsbD i || decide (j = i)) := by
  rw [← BitVec.twoPow_eq, BitVec.getLsbD_or, BitVec.getLsbD_twoPow, decide_eq_true hj, Bool.true_and]

/-- Settles O18: the staging word is an array entry, and its mark a bit of `KEYMASK`. -/
theorem writeKeyStagesOneWord : Obligations.WriteKeyStagesOneWord := by
  intro s off v rest j hi hb hj ho
  refine ⟨_, step_write_idle hi hb, ?_⟩
  rw [windowReg_key hj ho, writeIdle, set_eq_upd]
  refine ⟨nth_upd_same _ v hj, fun i hlt hne => nth_upd_ne _ v hj hlt hne, ?_, fun i _ hne => ?_, rfl⟩
  · simp [getLsbD_mark _ hj]
  · simp [getLsbD_mark _ hj, hne.symm]

/-! ### Idle writes elsewhere (R63, R71) -/

/-- Above the key staging the offsets are reserved (R62). -/
theorem windowReg_top {off : BitVec 8} (h : 24 ≤ off.toNat / 4) : windowReg off = .reserved := by
  unfold windowReg
  split <;> simp <;> omega

/-- Settles O19: the offsets are those of `ID`, `ERRCODE`, `DOUT` and the two reserved ranges, where a write has no effect. -/
theorem writeElsewhereChangesNothing : Obligations.WriteElsewhereChangesNothing := by
  intro s off v rest hi hb ho
  rw [step_write_idle hi hb]
  rcases ho with h | h | ⟨hl, hu⟩ | ⟨hl, hu⟩ | h
  · rw [windowReg_of_div h]
    rfl
  · rw [windowReg_of_div h]
    rfl
  · rw [windowReg_gap hl hu]
    rfl
  · obtain ⟨k, hk⟩ := Nat.exists_eq_add_of_le hl
    rw [windowReg_dout (k := k) (by omega) hk]
    rfl
  · rw [windowReg_top h]
    rfl

/-! ### Addresses (R60, R61) -/

theorem windowReg_congr {off off' : BitVec 8} (h : off.toNat / 4 = off'.toNat / 4) : windowReg off = windowReg off' :=
  (windowReg_of_div h).trans (windowReg_of_div rfl).symm

theorem windowOffset_base_add (off : BitVec 8) : windowOffset (Config.base + off.toNat) = some off := by
  have hlt := off.isLt
  rw [windowOffset, if_pos (by omega), Nat.add_sub_cancel_left, BitVec.ofNat_toNat, BitVec.setWidth_eq]

theorem windowOffset_outside {addr : Nat} (h : addr < Config.base ∨ Config.base + 256 ≤ addr) :
    windowOffset addr = none := by
  rw [windowOffset, if_neg (by omega)]

/-- Settles O20: accesses use the offset through `windowReg` alone, and the window starts at a multiple of 256. -/
theorem addressesSelectWholeRegisters : Obligations.AddressesSelectWholeRegisters := by
  refine ⟨fun off off' v s h => ?_, windowOffset_base_add, fun _ => windowOffset_outside, Nat.mul_mod_right 256 _⟩
  simp only [hostRead, hostWrite, windowReg_congr h, and_self]

end Sys2Proof.Proofs.Memory
end

section
/-! PROOFS. Which command writes which state (20_memory R79, 30_encoding R98, 10_state R37 to R46): a completion writes its
status and what the command's effect writes, so each clause is a fact about the effects. -/

namespace Sys2Proof.Proofs.WriteSets

open Sys2Proof.Machine Sys2Proof.Laws

/-- What only `INIT` and `TEARDOWN` write: the key, the tables made from it, the staging, the operands and `STATUS.INIT`
(R37, R40 to R43, R79). -/
def contextPart (s : State) :
    Key × Bank × Bank × Table × ByteTable × ByteTable × Vector Word 8 × BitVec 8 × Vector Word 4 × Bool :=
  (s.mkey, s.rfwd, s.rinv, s.plug, s.sbox, s.isbox, s.key, s.keymask, s.din, s.init)

/-- What no command writes: the host's flags, the pending word, the schedule and the build parameters (R7, R47). -/
def hostPart (s : State) : Bool × Bool × Bool × Word × List Input × PlugParameter × Nat :=
  (s.diag, s.ie, s.ovr, s.pending, s.inputs, s.plugPairs, s.sboxKeyOffset)

/-- The message state of the character units (R32, R45). -/
def charPart (s : State) : Block × Bool := (s.creg, s.cst)

/-- The message state of the block units (R32, R46). -/
def blockPart (s : State) : Block × Bool := (s.breg, s.bst)

/-- What a command's effect keeps, and the completion status is no part of, its completion keeps (R312). -/
theorem exec_keeps {β : Type} {i : Instr} {s t : State} (h : exec i s = .next t) (g : State → β)
    (hg : ∀ e u, g (complete e u) = g u) (hf : g (effectOf i s) = g s) : g t = g s :=
  command_keeps g hg hf (exec_eq_command i s ▸ h)

/-! ### The write sets of the effects -/

section

variable {i : Instr} (s : State)

theorem effectOf_contextPart (h : opcode i ∉ [0x01, 0x03]) : contextPart (effectOf i s) = contextPart s := by
  cases i with
  | init | teardown => simp [opcode] at h
  | _ => rfl

theorem effectOf_ncnt (h : opcode i ∉ [0x01, 0x03, 0x34]) : (effectOf i s).ncnt = s.ncnt := by
  cases i with
  | init | teardown | wrNcnt => simp [opcode] at h
  | _ => rfl

theorem effectOf_notch (h : opcode i ∉ [0x01, 0x03, 0x33]) : (effectOf i s).notch = s.notch := by
  cases i with
  | init | teardown | wrNotch => simp [opcode] at h
  | _ => rfl

theorem effectOf_pos (h : opcode i ∉ [0x01, 0x02, 0x03, 0x10, 0x11, 0x23, 0x31]) : (effectOf i s).pos = s.pos := by
  cases i with
  | init | msgrst | teardown | cenc | cdec | rotStep | wrPos => simp [opcode] at h
  | _ => rfl

theorem effectOf_charPart (h : opcode i ∉ [0x01, 0x02, 0x03, 0x10, 0x11]) : charPart (effectOf i s) = charPart s := by
  cases i with
  | init | msgrst | teardown | cenc | cdec => simp [opcode] at h
  | _ => rfl

theorem effectOf_blockPart (h : opcode i ∉ [0x01, 0x02, 0x03, 0x18, 0x19]) : blockPart (effectOf i s) = blockPart s := by
  cases i with
  | init | msgrst | teardown | benc | bdec => simp [opcode] at h
  | _ => rfl

theorem effectOf_mode (h : opcode i ∉ [0x01, 0x03, 0x10, 0x11, 0x18, 0x19]) : (effectOf i s).mode = s.mode := by
  cases i with
  | init | teardown | cenc | cdec | benc | bdec => simp [opcode] at h
  | _ => rfl

/-- The commands without a result keep `DOUT` (R98). -/
theorem effectOf_dout (h : opcode i ∈ [0x01, 0x02, 0x23, 0x31, 0x33, 0x34]) : (effectOf i s).dout = s.dout := by
  cases i with
  | init | msgrst | rotStep | wrPos | wrNotch | wrNcnt => rfl
  | _ => simp [opcode] at h

theorem effectOf_hostPart (i : Instr) : hostPart (effectOf i s) = hostPart s := by
  cases i <;> rfl

end

/-- Settles O56: each clause is the write set of the effects, carried over the completion by `exec_keeps`. -/
theorem commandsWriteOnlyTheirState : Obligations.CommandsWriteOnlyTheirState := by
  intro i s t h
  refine ⟨fun hi => ?context, fun hi => ?ncnt, fun hi => ?notch, fun hi => ?pos, fun hi => ?chars, fun hi => ?blocks,
    fun hi => ?mode, fun hi => ?dout, ?host⟩
  case context => simpa [contextPart] using exec_keeps h contextPart (fun _ _ => rfl) (effectOf_contextPart s hi)
  case ncnt => exact exec_keeps h State.ncnt (fun _ _ => rfl) (effectOf_ncnt s hi)
  case notch => exact exec_keeps h State.notch (fun _ _ => rfl) (effectOf_notch s hi)
  case pos => exact exec_keeps h State.pos (fun _ _ => rfl) (effectOf_pos s hi)
  case chars => simpa [charPart] using exec_keeps h charPart (fun _ _ => rfl) (effectOf_charPart s hi)
  case blocks => simpa [blockPart] using exec_keeps h blockPart (fun _ _ => rfl) (effectOf_blockPart s hi)
  case mode => exact exec_keeps h State.mode (fun _ _ => rfl) (effectOf_mode s hi)
  case dout => exact exec_keeps h State.dout (fun _ _ => rfl) (effectOf_dout s hi)
  case host => simpa [hostPart] using exec_keeps h hostPart (fun _ _ => rfl) (effectOf_hostPart s i)

end Sys2Proof.Proofs.WriteSets
end

section
/-! PROOFS. The encoding of 30_encoding: a word decodes to a command exactly when its fields are that command's (R91 to R94),
so decoding and encoding invert each other (R104), and the words that decode are those of the opcode table. -/

namespace Sys2Proof.Proofs.Encoding

open Sys2Proof.Safety Sys2Proof.Laws

/-! ### The word of a command (R90, R104) -/

/-- A command is well-formed when each operand fits its field: an operand the command does not use is 0 (R104). -/
theorem wellFormed_iff (i : Instr) :
    wellFormed i = true ↔ selOperand i < 16 ∧ nOperand i < 8 ∧ idxOperand i < 65536 := by
  cases i <;> simp [wellFormed, selOperand, nOperand, idxOperand]

/-- The fields of the word are the opcode and the operands of the command, and bit 15 is zero (R91). -/
def HasFieldsOf (w : Word) (i : Instr) : Prop :=
  opField w = opcode i ∧ selField w = selOperand i ∧ nField w = nOperand i ∧ rsvField w = 0 ∧ idxField w = idxOperand i

theorem encode_hasFieldsOf {i : Instr} (h : wellFormed i = true) : HasFieldsOf (encode i) i := by
  obtain ⟨hsel, hn, hidx⟩ := (wellFormed_iff i).mp h
  exact assembled_fields (opcode_lt i) hsel hn hidx

theorem HasFieldsOf.wellFormed {w : Word} {i : Instr} (h : HasFieldsOf w i) : wellFormed i = true := by
  obtain ⟨-, hsel, hn, -, hidx⟩ := h
  rw [wellFormed_iff, ← hsel, ← hn, ← hidx]
  exact ⟨selField_lt w, nField_lt w, idxField_lt w⟩

theorem HasFieldsOf.encode_eq {w : Word} {i : Instr} (h : HasFieldsOf w i) : encode i = w := by
  obtain ⟨hop, hsel, hn, hrsv, hidx⟩ := h
  rw [encode, ← hop, ← hsel, ← hn, ← hidx]
  exact (word_of_fields hrsv).symm

/-! ### Decoding by the form of a command (R93) -/

/-- Which of the fields `SEL`, `N`, `IDX` a command uses (R93). -/
structure Form where
  sel : Bool
  n : Bool
  idx : Bool

/-- The form of each row of the opcode map (R92, R93). -/
def form : Instr → Form
  | .rdPos _ | .wrPos _ | .wrNcnt _ | .rdRkey _ => ⟨true, false, false⟩
  | .rdNotch _ _ | .wrNotch _ _ => ⟨true, true, false⟩
  | .rdRfwd _ _ | .rdRinv _ _ => ⟨true, false, true⟩
  | .rdPlug _ | .rdSbox _ | .rdIsbox _ => ⟨false, false, true⟩
  | _ => ⟨false, false, false⟩

/-- The fields of the word that the form does not use are 0 (R93). -/
def Form.Fits (f : Form) (w : Word) : Prop :=
  (f.sel = false → selField w = 0) ∧ (f.n = false → nField w = 0) ∧ (f.idx = false → idxField w = 0)

/-- A word with the opcode of a command decodes exactly when it has the command's form. -/
theorem decodeOp_isSome_iff {w : Word} {i : Instr} (h : opField w = opcode i) :
    (decodeOp w).isSome = true ↔ (form i).Fits w := by
  cases i <;> simp only [opcode] at h <;>
    simp [decodeOp, h, decodeBare, decodeSel, decodeSelN, decodeSelIdx, decodeIdx, form, Form.Fits]

/-- A word with the fields of a command decodes to that command. -/
theorem HasFieldsOf.decode_eq {w : Word} {i : Instr} (h : HasFieldsOf w i) : decode w = some i := by
  obtain ⟨hop, hsel, hn, hrsv, hidx⟩ := h
  cases i <;> simp only [opcode, selOperand, nOperand, idxOperand] at hop hsel hn hidx <;>
    simp [decode, decodeOp, decodeBare, decodeSel, decodeSelN, decodeSelIdx, decodeIdx, *]

/-- A word that decodes has the fields of the command: each row of the opcode map takes the fields its command uses from the
word and wants the others 0. -/
theorem hasFieldsOf_of_decode {w : Word} {i : Instr} (h : decode w = some i) : HasFieldsOf w i := by
  obtain ⟨hrsv, hop⟩ : rsvField w = 0 ∧ decodeOp w = some i := by simpa [decode] using h
  unfold decodeOp at hop
  split at hop
  case h_34 => simp at hop
  all_goals
    simp only [decodeBare, decodeSel, decodeSelN, decodeSelIdx, decodeIdx, Option.ite_none_right_eq_some,
      Option.some.injEq] at hop
    obtain ⟨hunused, rfl⟩ := hop
    simp [HasFieldsOf, opcode, selOperand, nOperand, idxOperand, *]

/-- Decoding a word gives a command exactly when the word has the fields of that command (R94). -/
theorem decode_eq_some_iff (w : Word) (i : Instr) : decode w = some i ↔ HasFieldsOf w i :=
  ⟨hasFieldsOf_of_decode, HasFieldsOf.decode_eq⟩

/-- Settles O1: the word of a well-formed command has its fields. -/
theorem decodeInvertsEncode : Obligations.DecodeInvertsEncode := fun i h =>
  (decode_eq_some_iff (encode i) i).mpr (encode_hasFieldsOf h)

/-- Settles O2: a word is assembled from its fields, and they fit their widths. -/
theorem encodeInvertsDecode : Obligations.EncodeInvertsDecode := by
  intro w i h
  have hw : HasFieldsOf w i := (decode_eq_some_iff w i).mp h
  exact ⟨hw.wellFormed, hw.encode_eq⟩

/-! ### The opcode table (R92, R93) -/

/-- The words that decode: bit 15 is zero, and the opcode and the form are those of one command. -/
theorem decode_isSome_iff (w : Word) :
    (decode w).isSome = true ↔ ∃ i, rsvField w = 0 ∧ opField w = opcode i ∧ (form i).Fits w := by
  constructor
  · intro h
    obtain ⟨i, hi⟩ := Option.isSome_iff_exists.mp h
    obtain ⟨hop, -, -, hrsv, -⟩ := hasFieldsOf_of_decode hi
    refine ⟨i, hrsv, hop, (decodeOp_isSome_iff hop).mp ?_⟩
    rwa [decode, if_pos hrsv] at h
  · rintro ⟨i, hrsv, hop, hfits⟩
    rw [decode, if_pos hrsv]
    exact (decodeOp_isSome_iff hop).mpr hfits

theorem opField_lt (w : Word) : opField w < 256 := by rw [opField_eq]; omega

theorem rsvField_lt (w : Word) : rsvField w < 2 := by rw [rsvField_eq]; omega

/-- Two words with the same fields are the same word: the five fields are all 32 bits (R91). -/
theorem word_eq_iff_fields (v w : Word) :
    v = w ↔ opField v = opField w ∧ selField v = selField w ∧ nField v = nField w ∧ rsvField v = rsvField w ∧
      idxField v = idxField w := by
  refine ⟨by rintro rfl; simp, fun h => BitVec.eq_of_toNat_eq ?_⟩
  simp only [opField_eq, selField_eq, nField_eq, rsvField_eq, idxField_eq] at h
  omega

/-- The mask of a form: `OP`, bit 15 and the fields the form does not use. -/
def Form.mask (f : Form) : Word :=
  BitVec.ofNat 32 (0x80FF + 256 * (if f.sel then 0 else 15) + 4096 * (if f.n then 0 else 7) +
    65536 * (if f.idx then 0 else 65535))

theorem Form.mask_fields (f : Form) :
    opField f.mask = 255 ∧ selField f.mask = (if f.sel then 0 else 15) ∧ nField f.mask = (if f.n then 0 else 7) ∧
      rsvField f.mask = 1 ∧ idxField f.mask = (if f.idx then 0 else 65535) := by
  rcases f with ⟨_ | _, _ | _, _ | _⟩ <;> decide

/-- All ones of a field's width leave the field as it is. -/
theorem fields_and_ones (w : Word) :
    opField w &&& 255 = opField w ∧ selField w &&& 15 = selField w ∧ nField w &&& 7 = nField w ∧
      rsvField w &&& 1 = rsvField w ∧ idxField w &&& 65535 = idxField w :=
  ⟨Nat.and_two_pow_sub_one_of_lt_two_pow (n := 8) (opField_lt w),
    Nat.and_two_pow_sub_one_of_lt_two_pow (n := 4) (selField_lt w),
    Nat.and_two_pow_sub_one_of_lt_two_pow (n := 3) (nField_lt w),
    Nat.and_two_pow_sub_one_of_lt_two_pow (n := 1) (rsvField_lt w),
    Nat.and_two_pow_sub_one_of_lt_two_pow (n := 16) (idxField_lt w)⟩

/-- A mask that leaves out the fields in use wants the others 0. -/
theorem and_unless_used_eq_zero_iff {x ones : Nat} (hx : x &&& ones = x) (used : Bool) :
    x &&& (if used then 0 else ones) = 0 ↔ (used = false → x = 0) := by
  cases used <;> simp [hx]

theorem and_fields (v w : Word) :
    opField (v &&& w) = opField v &&& opField w ∧ selField (v &&& w) = selField v &&& selField w ∧
      nField (v &&& w) = nField v &&& nField w ∧ rsvField (v &&& w) = rsvField v &&& rsvField w ∧
      idxField (v &&& w) = idxField v &&& idxField w := by
  simp [opField, selField, nField, rsvField, idxField, BitVec.extractLsb'_and]

/-- A word matches an opcode under the mask of a form exactly when it has that opcode and that form, with bit 15 zero. -/
theorem and_mask_eq_iff (f : Form) (w : Word) {op : Nat} (hop : op < 256) :
    w &&& f.mask = BitVec.ofNat 32 op ↔ rsvField w = 0 ∧ opField w = op ∧ f.Fits w := by
  obtain ⟨wop, wsel, wn, wrsv, widx⟩ := and_fields w f.mask
  obtain ⟨mop, msel, mn, mrsv, midx⟩ := f.mask_fields
  obtain ⟨vop, vsel, vn, vrsv, vidx⟩ :=
    assembled_fields hop (a := 0) (b := 0) (c := 0) (by omega) (by omega) (by omega)
  simp only [Nat.mul_zero, Nat.add_zero] at vop vsel vn vrsv vidx
  obtain ⟨oop, osel, on, orsv, oidx⟩ := fields_and_ones w
  rw [word_eq_iff_fields, wop, wsel, wn, wrsv, widx, mop, msel, mn, mrsv, midx, vop, vsel, vn, vrsv, vidx, oop, orsv,
    and_unless_used_eq_zero_iff osel, and_unless_used_eq_zero_iff on, and_unless_used_eq_zero_iff oidx, Form.Fits]
  tauto

/-- The row of a command in the opcode table: the mask of its form and its opcode. -/
def tableRow (i : Instr) : Word × Word := ((form i).mask, BitVec.ofNat 32 (opcode i))

/-- A command of each row of the opcode map, in its order (R92). -/
def rowCommands : List Instr :=
  [.init, .msgrst, .teardown, .cenc, .cdec, .benc, .bdec, .pbApply, .rotFwd, .rotBwd, .rotStep, .btFwd, .btInv, .btSub,
    .btShr, .btMix, .btArk, .btIsub, .btIshr, .btImix, .rdPos 0, .wrPos 0, .rdNotch 0 0, .wrNotch 0 0, .wrNcnt 0,
    .rdRfwd 0 0, .rdRinv 0 0, .rdPlug 0, .rdSbox 0, .rdIsbox 0, .rdRkey 0, .rdCreg, .rdBreg]

theorem opcodeTable_eq : opcodeTable = rowCommands.map tableRow := by decide

theorem tableRow_mem (i : Instr) : tableRow i ∈ opcodeTable := by
  rw [opcodeTable_eq]
  cases i <;> simp [rowCommands, tableRow, form, opcode]

theorem inOpcodeTable_iff (w : Word) : InOpcodeTable w ↔ ∃ i, w &&& (tableRow i).1 = (tableRow i).2 := by
  constructor
  · rintro ⟨row, hmem, hrow⟩
    rw [opcodeTable_eq, List.mem_map] at hmem
    obtain ⟨i, -, rfl⟩ := hmem
    exact ⟨i, hrow⟩
  · rintro ⟨i, hi⟩
    exact ⟨tableRow i, tableRow_mem i, hi⟩

/-- Settles O3: the rows are the masks and opcodes of the commands, and matching one is having its form. -/
theorem decodeFollowsOpcodeTable : Obligations.DecodeFollowsOpcodeTable := by
  intro w
  rw [decode_isSome_iff, inOpcodeTable_iff]
  exact exists_congr fun i => (and_mask_eq_iff (form i) w (opcode_lt i)).symm

/-! ### Words (R104) -/

/-- Bit 15 of a word is its reserved field (R91). -/
theorem getLsbD_fifteen_of_rsvField {w : Word} (h : rsvField w = 0) : w.getLsbD 15 = false := by
  rw [rsvField_eq] at h
  simp [BitVec.getLsbD, Nat.testBit_eq_decide_div_mod_eq, h]

/-- The sum of the fields of a well-formed command fits in 32 bits (R104). -/
theorem encode_toNat {i : Instr} (h : wellFormed i = true) :
    (encode i).toNat = opcode i + 256 * selOperand i + 4096 * nOperand i + 65536 * idxOperand i := by
  have hop := opcode_lt i
  obtain ⟨hsel, hn, hidx⟩ := (wellFormed_iff i).mp h
  rw [encode, BitVec.toNat_ofNat]
  omega

/-- Settles O4: the sum does not wrap, and the fields of the word are its summands. -/
theorem wordsAreAssembledFromFields : Obligations.WordsAreAssembledFromFields := by
  refine ⟨fun i h => ?_, by decide, by decide, by decide⟩
  obtain ⟨hsel, hn, hidx⟩ := (wellFormed_iff i).mp h
  obtain ⟨-, -, -, hrsv, -⟩ := encode_hasFieldsOf h
  exact ⟨encode_toNat h, hsel, hn, hidx, getLsbD_fifteen_of_rsvField hrsv⟩

/-- Settles O5, by running the decoder on the seven words. -/
theorem sampleWordsDecode : Obligations.SampleWordsDecode := by
  unfold Obligations.SampleWordsDecode
  decide

end Sys2Proof.Proofs.Encoding
end

section
/-! PROOFS. The operand ranges of 30_encoding (R95): an enabled, initialized engine reports `BadOperand` exactly on the
condition of the command's row. -/

namespace Sys2Proof.Proofs.OperandRanges

open Sys2Proof.Machine Sys2Proof.Safety Sys2Proof.Laws

/-- A completion reports code 6 only for an operand out of range: code 6 is `BadOperand`'s alone (R300, R305). -/
theorem badOperand_of_exec_errcode {i : Instr} {s t : State} (h : exec i s = .next t) (ht : t.errcode = 6) :
    badOperand i (codePoint s) = true := by
  rcases exec_cases h with ⟨e, hc, rfl⟩ | ⟨-, rfl⟩
  · rcases (check_eq_some_iff i s e).mp hc with ⟨rfl, -⟩ | ⟨rfl, -⟩ | ⟨-, -, -, hb⟩ | ⟨rfl, -⟩
    case inr.inr.inl => exact hb
    all_goals simp [Err.code] at ht
  · simp at ht

/-- Enabled and initialized, a command reports `BadOperand` exactly when an operand is out of range. -/
theorem exec_eq_badOperand_iff {i : Instr} {s : State} (hd : s.diag = true) (hi : s.init = true) :
    exec i s = .next (failedWith 6 s) ↔ badOperand i (nth s.din 0) = true := by
  refine ⟨fun h => badOperand_of_exec_errcode h rfl, fun hb => ?_⟩
  have hc : check i s = some .badOperand := by
    rw [check_eq_some_iff]
    simp [hd, hi, codePoint, hb]
  rw [exec_eq_command, command_of_some _ hc, fail_eq]
  rfl

/-- The commands without a row in R95 take every operand. -/
theorem badOperand_eq_false {i : Instr} (v : Word)
    (h : opcode i ∉ [0x30, 0x31, 0x32, 0x33, 0x34, 0x38, 0x39, 0x3B, 0x3C, 0x3D]) : badOperand i v = false := by
  cases i with
  | rdPos | wrPos | rdNotch | wrNotch | wrNcnt | rdRfwd | rdRinv | rdSbox | rdIsbox | rdRkey => simp [opcode] at h
  | _ => rfl

/-- Settles O23: each clause is the row of `badOperand` for its command. -/
theorem operandRangesAreChecked : Obligations.OperandRangesAreChecked := by
  intro s hd hi sel n idx
  refine ⟨?_, ?_, ?_, ?_, ?_, ?_, ?_, ?_, ?_, ?_, fun i t hop h h6 => ?_⟩
  case refine_11 =>
    have hb := badOperand_of_exec_errcode h h6
    rw [badOperand_eq_false _ hop] at hb
    exact absurd hb (by decide)
  all_goals
    rw [exec_eq_badOperand_iff hd hi]
    simp [badOperand, or_assoc]

end Sys2Proof.Proofs.OperandRanges
end

section
/-! PROOFS. The key schedule of 40_key_schedule for every key: the shuffle's partner (R122), the ranges of the derived values
(R135), and the derived tables as permutations of their domain (R127, R131, R133). -/

namespace Sys2Proof.Proofs.KeySchedule

open Sys2Proof.Machine Sys2Proof.Safety Sys2Proof.Laws

/-! ### The shuffle's partner (R122) -/

/-- Modulo `i + 1` the factor `i` is `-1`. -/
theorem mul_mod_succ (b i : Nat) : b * i % (i + 1) = (i + 1 - b % (i + 1)) % (i + 1) := by
  have hle : b % (i + 1) ≤ i + 1 := (Nat.mod_lt b i.succ_pos).le
  have hcancel : b * i + b ≡ i + 1 - b % (i + 1) + b [MOD i + 1] :=
    calc b * i + b = b * (i + 1) := by rw [Nat.mul_succ]
      _ ≡ 0 [MOD i + 1] := Nat.modEq_zero_iff_dvd.mpr (Nat.dvd_mul_left _ _)
      _ ≡ i + 1 [MOD i + 1] := (Nat.modEq_zero_iff_dvd.mpr dvd_rfl).symm
      _ = i + 1 - b % (i + 1) + b % (i + 1) := (Nat.sub_add_cancel hle).symm
      _ ≡ i + 1 - b % (i + 1) + b [MOD i + 1] := (Nat.mod_modEq b (i + 1)).add_left _
  exact hcancel.add_right_cancel' b

theorem partner_eq_sub_mod (kb : Nat → Byte) (i : Nat) :
    partner kb i = (i + 1 - (kb i).toNat % (i + 1)) % (i + 1) := mul_mod_succ _ i

theorem partner_of_zero {kb : Nat → Byte} {i : Nat} (h : kb i = 0) : partner kb i = 0 := by
  simp [partner, h]

/-- Settles O49: `mul_mod_succ` is the form without a multiplier, and the two special cases are read off it. -/
theorem shufflePartnerNeedsNoMultiplier : Obligations.ShufflePartnerNeedsNoMultiplier := by
  intro kb i
  refine ⟨partner_eq_sub_mod kb i, partner_of_zero, fun h => ?_, partner_le kb i⟩
  rw [partner_eq_sub_mod, h, Nat.add_sub_cancel, Nat.mod_eq_of_lt i.lt_succ_self]

/-! ### Ranges (R135) -/

theorem ksPos_toNat (k : Key) (r : Nat) : (ksPos k r).toNat = (keyByte k r).toNat := by
  have := (keyByte k r).isLt
  rw [ksPos, BitVec.toNat_setWidth, Nat.mod_eq_of_lt (by omega)]

/-- A used notch slot is 251 times a key byte: the product does not wrap (R125). -/
theorem ksNotch_toNat {k : Key} {r n : Nat} (h : n < (ksNcnt k r).toNat) :
    (ksNotch k r n).toNat = 251 * (keyByte k (r + n + 2)).toNat := by
  have := (keyByte k (r + n + 2)).isLt
  rw [ksNotch, if_pos h, BitVec.toNat_ofNat, Config.mult, Nat.mod_eq_of_lt (by omega), Nat.mul_comm]

theorem fifty_le_plugSwaps (k : Key) : 50 ≤ plugSwaps k := Nat.le_add_left _ _

/-- Round keys repeat after eight rounds, 32 bytes (R132). -/
theorem roundKeyByte_add_eight (k : Key) (round i : Nat) : roundKeyByte k (round + 8) i = roundKeyByte k round i := by
  have hmod : (i + (round + 8) * 4) % 32 = (i + round * 4) % 32 := by omega
  rw [roundKeyByte, roundKeyByte, keyByte, keyByte, ← nth_mod, hmod, nth_mod]

/-- Settles O51: every value comes from one key byte, and no multiple of 251 is 5. -/
theorem keyScheduleValueRanges : Obligations.KeyScheduleValueRanges := by
  refine fun k => ⟨fun r _ => ?pos, fun r _ n hn => ?notch, fifty_le_plugSwaps k, plugSwaps_le k,
    roundKeyByte_add_eight k⟩
  case pos =>
    have := (keyByte k r).isLt
    rw [ksPos_toNat]
    omega
  case notch =>
    have := (keyByte k (r + n + 2)).isLt
    rw [ksNotch_toNat hn]
    exact ⟨⟨_, by omega, rfl⟩, by omega, by omega⟩

/-! ### Permutations

A table of `2 ^ w` entries of `w` bits is a map of `BitVec w` to itself: the rotor tables and the plugboard at `w = 16`, the
S-boxes at `w = 8`. -/

/-- An index of the table is the value of its `w`-bit word. -/
theorem toNat_ofNat_of_lt {w n : Nat} (hn : n = 2 ^ w) {x : Nat} (hx : x < n) : (BitVec.ofNat w x).toNat = x := by
  rw [BitVec.toNat_ofNat, Nat.mod_eq_of_lt (hn ▸ hx)]

section

variable {w n : Nat} [NeZero n] {t : Vector (BitVec w) n}

/-- The table as a map of its domain (R79). -/
def lookup (t : Vector (BitVec w) n) (x : BitVec w) : BitVec w := nth t x.toNat

theorem tableAt_eq_lookup (t : Table) : Table.at t = lookup t := funext (tableAt_eq_nth t)

theorem byteTableAt_eq_lookup (t : ByteTable) : ByteTable.at t = lookup t := funext (byteTableAt_eq_nth t)

/-- A table whose entries come from distinct indices is a permutation. -/
theorem lookup_bijective (hn : n = 2 ^ w) {source : Nat → Nat} (hlt : ∀ x < n, source x < n)
    (hinj : Function.Injective source) (ht : ∀ x < n, nth t x = BitVec.ofNat w (source x)) :
    Function.Bijective (lookup t) := by
  have hval : ∀ x : BitVec w, (lookup t x).toNat = source x.toNat := fun x => by
    have hx : x.toNat < n := hn ▸ x.isLt
    rw [lookup, ht _ hx, toNat_ofNat_of_lt hn (hlt _ hx)]
  refine Finite.injective_iff_bijective.mp fun x y hxy => BitVec.eq_of_toNat_eq (hinj ?_)
  rw [← hval, ← hval, hxy]

theorem transpose_injective (i j : Nat) : Function.Injective (transpose i j) :=
  Function.LeftInverse.injective (transpose_transpose i j)

/-- The shuffle's exchanges keep distinct indices distinct (R121, R133). -/
theorem shuffleSource_injective (kb : Nat → Byte) : ∀ m, Function.Injective (shuffleSource kb m)
  | 0 => Function.injective_id
  | i + 1 => (transpose_injective (i + 1) (partner kb (i + 1))).comp (shuffleSource_injective kb i)

/-- A shuffled table is a permutation, whatever the key bytes (R133). -/
theorem shuffle_bijective (hn : n = 2 ^ w) (kb : Nat → Byte) : Function.Bijective (lookup (shuffle w n kb)) := by
  have hpred : n - 1 < n := Nat.sub_lt (NeZero.pos n) Nat.one_pos
  exact lookup_bijective hn (fun x hx => shuffleSource_lt kb hpred hx) (shuffleSource_injective kb _)
    fun x hx => nth_shuffle kb hx

theorem swapSource_injective (pair : Nat → Half × Half) (l : List Nat) :
    Function.Injective fun x => l.foldr (fun i y => transpose (pair i).1.toNat (pair i).2.toNat y) x := by
  induction l with
  | nil => exact Function.injective_id
  | cons i l ih => exact (transpose_injective (pair i).1.toNat (pair i).2.toNat).comp ih

/-- The plugboard is a permutation for every `PLUG_PAIR` (R133). -/
theorem ksPlugWith_bijective (pair : Key → Nat → Half × Half) (k : Key) :
    Function.Bijective (lookup (ksPlugWith pair k)) :=
  lookup_bijective rfl (fun _ hx => (nth_plugFold (pair k) _ (identityTable 16 65536) hx).2)
    (swapSource_injective (pair k) _) fun _ hx => nth_ksPlugWith pair k hx

/-! ### Inverse tables (R127, R131) -/

/-- The inverse of a permutation finds every entry again. -/
theorem lookup_invertTable_lookup (hn : n = 2 ^ w) (ht : Function.Injective (lookup t)) (x : BitVec w) :
    lookup (invertTable t) (lookup t x) = x := by
  have hrange : ∀ y < n, (nth t y).toNat < n := fun y _ => hn ▸ (nth t y).isLt
  have hdistinct : ∀ y < n, ∀ z < n, nth t y = nth t z → y = z := fun y hy z hz h => by
    have hyz : BitVec.ofNat w y = BitVec.ofNat w z :=
      ht (by rwa [lookup, lookup, toNat_ofNat_of_lt hn hy, toNat_ofNat_of_lt hn hz])
    rw [← toNat_ofNat_of_lt hn hy, hyz, toNat_ofNat_of_lt hn hz]
  rw [lookup, lookup, nth_invertTable t hrange hdistinct (hn ▸ x.isLt), BitVec.ofNat_toNat, BitVec.setWidth_eq]

/-- On a finite domain, undoing a permutation on one side undoes it on the other. -/
theorem lookup_lookup_invertTable (hn : n = 2 ^ w) (ht : Function.Bijective (lookup t)) (x : BitVec w) :
    lookup t (lookup (invertTable t) x) = x :=
  Function.LeftInverse.rightInverse_of_surjective (lookup_invertTable_lookup hn ht.injective) ht.surjective x

theorem invertTable_bijective (hn : n = 2 ^ w) (ht : Function.Bijective (lookup t)) :
    Function.Bijective (lookup (invertTable t)) :=
  ⟨Function.LeftInverse.injective (lookup_lookup_invertTable hn ht),
    Function.RightInverse.surjective (lookup_invertTable_lookup hn ht.injective)⟩

end

/-- Settles O50: a shuffle and a plugboard are exchanges of the identity, and the inverse of a permutation undoes it on both
sides. -/
theorem derivedTablesAreBijective : Obligations.DerivedTablesAreBijective := by
  intro k
  have hrotor (r : Nat) : Function.Bijective (lookup (ksRfwd k r)) := shuffle_bijective rfl _
  have hsbox (offset : Nat) : Function.Bijective (lookup (ksSbox offset k)) := shuffle_bijective rfl _
  refine ⟨fun r _ => ?rotors, fun pair => ?plug, fun offset => ?sboxes, fun r hr x => ?banks⟩
  case rotors =>
    rw [TablePermutes, TablePermutes, tableAt_eq_lookup, tableAt_eq_lookup]
    exact ⟨hrotor r, invertTable_bijective rfl (hrotor r)⟩
  case plug =>
    rw [TablePermutes, TablePermutes, tableAt_eq_lookup, tableAt_eq_lookup]
    exact ⟨ksPlugWith_bijective pair k, invertTable_bijective rfl (ksPlugWith_bijective pair k)⟩
  case sboxes =>
    rw [SboxesInverse, byteTableAt_eq_lookup, byteTableAt_eq_lookup]
    exact ⟨hsbox offset, invertTable_bijective rfl (hsbox offset), fun x =>
      ⟨lookup_invertTable_lookup rfl (hsbox offset).injective x, lookup_lookup_invertTable rfl (hsbox offset) x⟩⟩
  case banks =>
    rw [nth_ksForwardBank k hr, nth_ksInverseBank k hr, tableAt_eq_lookup, tableAt_eq_lookup]
    exact ⟨lookup_invertTable_lookup rfl (hrotor r).injective x, lookup_lookup_invertTable rfl (hrotor r) x⟩

end Sys2Proof.Proofs.KeySchedule
end

section
/-! PROOFS. The all-zero key (40_key_schedule R136): every shuffle partner is 0, so every table shifts by one, and every
character unit decrypts correctly (44_chaining R244 item 3). -/

namespace Sys2Proof.Proofs.ZeroKey

open Sys2Proof.Machine Sys2Proof.Safety Sys2Proof.Laws Sys2Proof.Proofs.KeySchedule

/-- The all-zero key (R136). -/
def zeroKey : Key := Vector.replicate 32 0

theorem keyByte_zeroKey (j : Nat) : keyByte zeroKey j = 0 := nth_replicate _ _

/-! ### A shuffle with partner 0 throughout -/

/-- With every partner 0, the steps `m, ..., 1` rotate the indices `0..m` by one. -/
theorem shuffleSource_of_partner_zero {kb : Nat → Byte} (h : ∀ i, partner kb i = 0) (x : Nat) :
    ∀ m, shuffleSource kb m x = if x < m then x + 1 else if x = m then 0 else x
  | 0 => by
    rw [shuffleSource]
    split_ifs <;> omega
  | m + 1 => by
    rw [shuffleSource, h, shuffleSource_of_partner_zero h x m, transpose]
    rcases Nat.lt_trichotomy x m with hlt | rfl | hgt
    · simp [hlt, hlt.ne, Nat.lt_succ_of_lt hlt]
    · simp
    · simp [hgt.not_gt, hgt.ne', hgt.not_ge, Nat.ne_zero_of_lt hgt]

section

variable {w n : Nat} [NeZero n] {kb : Nat → Byte}

/-- With every key byte 0 a shuffled table adds 1, modulo its length. -/
theorem lookup_shuffle_of_zero (hn : n = 2 ^ w) (h : ∀ i, kb i = 0) (x : BitVec w) :
    lookup (shuffle w n kb) x = x + 1 := by
  have hx : x.toNat < n := hn ▸ x.isLt
  rw [lookup, nth_shuffle kb hx, shuffleSource_of_partner_zero fun i => partner_of_zero (h i)]
  refine BitVec.eq_of_toNat_eq ?_
  have hone : (x + 1).toNat = (x.toNat + 1) % n := by
    rw [BitVec.ofNat_eq_ofNat, BitVec.toNat_add, BitVec.toNat_ofNat, ← hn, Nat.add_mod_mod]
  rw [hone, BitVec.toNat_ofNat, ← hn]
  by_cases hlast : x.toNat + 1 = n
  · rw [if_neg (by omega), if_pos (by omega), hlast, Nat.mod_self, Nat.zero_mod]
  · rw [if_pos (by omega)]

/-- Its inverse subtracts 1. -/
theorem lookup_invertTable_shuffle_of_zero (hn : n = 2 ^ w) (h : ∀ i, kb i = 0) (x : BitVec w) :
    lookup (invertTable (shuffle w n kb)) x = x - 1 := by
  have hx := lookup_invertTable_lookup hn (shuffle_bijective hn kb).injective (x - 1)
  rwa [lookup_shuffle_of_zero hn h, BitVec.sub_add_cancel] at hx

end

theorem tableAt_ksRfwd_zeroKey (r : Nat) (x : Half) : Table.at (ksRfwd zeroKey r) x = x + 1 := by
  rw [tableAt_eq_lookup]
  exact lookup_shuffle_of_zero rfl (fun _ => keyByte_zeroKey _) x

theorem tableAt_ksRinv_zeroKey (r : Nat) (x : Half) : Table.at (ksRinv zeroKey r) x = x - 1 := by
  rw [tableAt_eq_lookup]
  exact lookup_invertTable_shuffle_of_zero rfl (fun _ => keyByte_zeroKey _) x

theorem byteTableAt_ksSbox_zeroKey (offset : Nat) (x : Byte) : ByteTable.at (ksSbox offset zeroKey) x = x + 1 := by
  rw [byteTableAt_eq_lookup]
  exact lookup_shuffle_of_zero rfl (fun _ => keyByte_zeroKey _) x

theorem byteTableAt_ksIsbox_zeroKey (offset : Nat) (x : Byte) : ByteTable.at (ksIsbox offset zeroKey) x = x - 1 := by
  rw [byteTableAt_eq_lookup]
  exact lookup_invertTable_shuffle_of_zero rfl (fun _ => keyByte_zeroKey _) x

/-! ### The other derived values -/

theorem ksNotch_zeroKey (r n : Nat) : ksNotch zeroKey r n = 0 := by
  simp [ksNotch, keyByte_zeroKey]

theorem defaultPlugPair_zeroKey (i : Nat) : defaultPlugPair zeroKey i = (0, 0) := by
  simp [defaultPlugPair, keyByte_zeroKey]

/-- Exchanging entry 0 with itself moves nothing. -/
theorem transpose_self (i x : Nat) : transpose i i x = x := by
  unfold transpose
  split_ifs <;> omega

/-- Under the default `PLUG_PAIR` the plugboard is the identity: every exchange is of entry 0 with itself. -/
theorem tableAt_plug_zeroKey (x : Half) : Table.at (ksPlugWith defaultPlugPair zeroKey) x = x := by
  have hsource : ∀ l : List Nat, l.foldr (fun i y => transpose (defaultPlugPair zeroKey i).1.toNat
      (defaultPlugPair zeroKey i).2.toNat y) x.toNat = x.toNat := by
    intro l
    induction l with
    | nil => rfl
    | cons i l ih => rw [List.foldr_cons, ih, defaultPlugPair_zeroKey, transpose_self]
  rw [tableAt_eq_nth, nth_ksPlugWith _ _ x.isLt, hsource, BitVec.ofNat_toNat, BitVec.setWidth_eq]

/-- Settles O52: every key byte is 0, so every partner is 0 and every table is a rotation by one. -/
theorem zeroKeySchedule : Obligations.ZeroKeySchedule := by
  intro k hk
  obtain rfl : k = zeroKey := hk
  refine ⟨fun r i => partner_of_zero (keyByte_zeroKey _), fun r _ x => ⟨tableAt_ksRfwd_zeroKey r x, ?_⟩,
    fun offset x => ⟨byteTableAt_ksSbox_zeroKey offset x, ?_⟩, fun r _ => ⟨?_, ?_, fun n _ => ksNotch_zeroKey r n⟩,
    fun round _ i _ => keyByte_zeroKey _, defaultPlugPair_zeroKey, tableAt_plug_zeroKey⟩
  · rw [tableAt_ksRinv_zeroKey, BitVec.sub_eq_add_neg]
    rfl
  · rw [byteTableAt_ksIsbox_zeroKey, BitVec.sub_eq_add_neg]
    rfl
  · rw [ksPos, keyByte_zeroKey]
    rfl
  · rw [ksNcnt, keyByte_zeroKey]
    rfl

/-! ### Character units under the all-zero key (R244 item 3) -/

/-- A code point of the BMP moved by `c` modulo 65536; a code point outside it unchanged. -/
def shiftBmp (c : Half) (v : Word) : Word := if bmp v then (v.setWidth 16 + c).setWidth 32 else v

theorem bmp_setWidth (x : Half) : bmp (x.setWidth 32) = true :=
  bmp_of_lt (by have := x.isLt; rw [BitVec.toNat_setWidth]; omega)

theorem setWidth_setWidth_half (x : Half) : (x.setWidth 32).setWidth 16 = x := by
  simp

/-- Shifts add up. -/
theorem shiftBmp_shiftBmp (c d : Half) (v : Word) : shiftBmp d (shiftBmp c v) = shiftBmp (c + d) v := by
  cases hv : bmp v with
  | true => simp only [shiftBmp, hv, bmp_setWidth, if_true, setWidth_setWidth_half, BitVec.add_assoc]
  | false => simp [shiftBmp, hv]

theorem shiftBmp_zero (v : Word) : shiftBmp 0 v = v := by
  cases hv : bmp v with
  | true =>
    have hlt : v.toNat < 65536 := by simpa [bmp] using hv
    exact BitVec.eq_of_toNat_eq (by simpa [shiftBmp, hv, Nat.mod_eq_of_lt hlt] using v.isLt)
  | false => simp [shiftBmp, hv]

/-- A bank of tables that add 1 shifts by 8, whatever the positions (R150). -/
theorem rotorForward_eq_shiftBmp {rfwd : Bank} (h : ∀ r < 8, ∀ x, Table.at (nth rfwd r) x = x + 1) (pos : Positions)
    (v : Word) : rotorForward rfwd pos v = shiftBmp 8 v := by
  have hone : ∀ r < 8, ∀ u : Half, forwardOne rfwd pos r u = u + 1 := fun r hr u => by
    rw [forwardOne, h r hr]
    bv_omega
  have hpass : ∀ u : Half, rotors.foldl (fun u r => forwardOne rfwd pos r u) u = u + 8 := fun u => by
    simp only [rotors, List.foldl_cons, List.foldl_nil, hone, Nat.reduceLT, BitVec.add_assoc]
    rfl
  simp only [rotorForward, shiftBmp, hpass]

/-- A bank of tables that subtract 1 shifts back by 8, whatever the positions (R151). -/
theorem rotorBackward_eq_shiftBmp {rinv : Bank} (h : ∀ r < 8, ∀ x, Table.at (nth rinv r) x = x - 1) (pos : Positions)
    (v : Word) : rotorBackward rinv pos v = shiftBmp (-8) v := by
  have hone : ∀ r < 8, ∀ u : Half, backwardOne rinv pos r u = u + (-1) := fun r hr u => by
    rw [backwardOne, h r hr]
    bv_omega
  have hpass : ∀ u : Half, rotors.foldr (fun r u => backwardOne rinv pos r u) u = u + (-8) := fun u => by
    simp only [rotors, List.foldr_cons, List.foldr_nil, hone, Nat.reduceLT, BitVec.add_assoc]
    rfl
  simp only [rotorBackward, shiftBmp, hpass]

/-- An identity plugboard shifts by nothing (R190). -/
theorem plugApply_eq_self {plug : Table} (h : ∀ x, Table.at plug x = x) (v : Word) : plugApply plug v = v := by
  have hshift : plugApply plug v = shiftBmp 0 v := by
    simp only [plugApply, shiftBmp, h, BitVec.add_zero, BitVec.ofNat_eq_ofNat]
  rw [hshift, shiftBmp_zero]

/-- Keyed with zeros under the default `PLUG_PAIR`: the plugboard is the identity, and the passes shift by 8 and back. -/
theorem zeroKeyed_passes {s : State} (ht : TablesFollowKey s) (hp : s.plugPairs = []) (hk : s.mkey = zeroKey) :
    (∀ v, plugApply s.plug v = v) ∧ (∀ pos v, rotorForward s.rfwd pos v = shiftBmp 8 v) ∧
      ∀ pos v, rotorBackward s.rinv pos v = shiftBmp (-8) v := by
  obtain ⟨hrfwd, hrinv, hplug, -, -⟩ := ht
  rw [hrfwd, hrinv, hplug, hp, hk, ksPlug, plugPair_nil]
  refine ⟨plugApply_eq_self tableAt_plug_zeroKey, rotorForward_eq_shiftBmp fun r hr x => ?_,
    rotorBackward_eq_shiftBmp fun r hr x => ?_⟩
  · rw [nth_ksForwardBank _ hr, tableAt_ksRfwd_zeroKey]
  · rw [nth_ksInverseBank _ hr, tableAt_ksRinv_zeroKey]

/-- The passes of a unit compose to the identity, at any positions (R244 item 3). -/
theorem encryptValue_zeroKeyed {s : State} (ht : TablesFollowKey s) (hp : s.plugPairs = []) (hk : s.mkey = zeroKey)
    (v : Word) : encryptValue s v = v := by
  obtain ⟨hplug, hforward, hbackward⟩ := zeroKeyed_passes ht hp hk
  rw [encryptValue, State.backward, State.forward, stepRotors_rinv, hplug, hforward, hbackward, shiftBmp_shiftBmp]
  exact shiftBmp_zero v

theorem decryptValue_zeroKeyed {s : State} (ht : TablesFollowKey s) (hp : s.plugPairs = []) (hk : s.mkey = zeroKey)
    (v : Word) : decryptValue s v = v := by
  obtain ⟨hplug, hforward, hbackward⟩ := zeroKeyed_passes ht hp hk
  rw [decryptValue, State.forward, State.backward, stepRotors_rfwd, hplug, hbackward, hforward, shiftBmp_shiftBmp]
  exact shiftBmp_zero v

/-! ### The output units -/

/-- The output unit of `CENC`: the mixed value XOR the feedback (R241). -/
theorem cenc_dout {s t : State} (hi : s.init = true) (h : exec .cenc s = .next t) :
    nth t.dout 0 = encryptValue s (nth s.din 0) ^^^ cregWord s.creg := by
  obtain rfl := Host.Outcome.next.inj ((exec_of_check (check_initialized hi rfl (by simp))).symm.trans h)
  exact joinBytes_xor_cregLow _ _

/-- The output unit of `CDEC`: the operand XOR the feedback, unmixed (R242). -/
theorem cdec_dout {s t : State} (hi : s.init = true) (h : exec .cdec s = .next t) :
    nth t.dout 0 = decryptValue s (nth s.din 0 ^^^ cregWord s.creg) := by
  obtain rfl := Host.Outcome.next.inj ((exec_of_check (check_initialized hi rfl (by simp))).symm.trans h)
  exact congrArg (decryptValue s) (joinBytes_xor_cregLow _ _)

/-- Settles O38: both mixes are the identity, so the equal feedback words cancel. -/
theorem zeroKeyUnitsRoundTrip : Obligations.ZeroKeyUnitsRoundTrip := by
  intro s t s' t' hsi hti hst htt hsp htp hsk htk hcreg hs hdin ht
  rw [cdec_dout hti ht, decryptValue_zeroKeyed htt htp htk, hdin, cenc_dout hsi hs,
    encryptValue_zeroKeyed hst hsp hsk, ← hcreg, BitVec.xor_assoc, BitVec.xor_self, BitVec.xor_zero]

end Sys2Proof.Proofs.ZeroKey
end

section
/-! PROOFS. The readback of the round keys and the chaining registers (40_key_schedule R132, 44_chaining R249, R250). -/

namespace Sys2Proof.Proofs.Readback

open Sys2Proof.Machine Sys2Proof.Safety Sys2Proof.Laws

/-- A command whose effect is a block result: its sixteen bytes are in `DOUT`, and nothing else changes but the status
(R98, R313). -/
theorem exec_block_result {i : Instr} {s : State} {b : Block} (hc : check i s = none)
    (he : effectOf i s = writeBlock b s) :
    ∃ t, exec i s = .next t ∧ t = succeeded { s with dout := t.dout } ∧
      ∀ j < 16, byteOf (nth t.dout (j / 4)) (j % 4) = nth b j := by
  refine ⟨succeed (writeBlock b s), ?_, succeed_eq _, fun j hj => ?_⟩
  · rw [exec_of_check hc, he]
  · rw [succeed_dout, writeBlock_dout, ← nth_blk _ hj, blk_unblk]

/-- Settles O48: each of the three commands has a block result, and the bytes of a round key are key bytes. -/
theorem keyAndChainingReadback : Obligations.KeyAndChainingReadback := by
  intro s hd hi
  refine ⟨fun round hround => ?_, exec_block_result (check_enabled hd hi (by simp) rfl) rfl,
    exec_block_result (check_enabled hd hi (by simp) rfl) rfl⟩
  have hrange : badOperand (.rdRkey round) (nth s.din 0) = false := by
    simp only [badOperand, decide_eq_false_iff_not]
    omega
  obtain ⟨t, ht, hframe, hbytes⟩ := exec_block_result (check_enabled hd hi (by simp) hrange) rfl
  refine ⟨t, ht, hframe, fun i hlt => ?_⟩
  rw [hbytes i hlt, nth_roundKey _ _ hlt, keyByte, nth_mod]

end Sys2Proof.Proofs.Readback
end

section
/-! PROOFS. The rotor passes of 41_rotor_bank: a pass inside the BMP is a fold of sixteen-bit values over the rotors, so
backward undoes forward (R153), and the two pass commands return the end of the chain of values (R150, R151). -/

namespace Sys2Proof.Proofs.RotorPasses

open Sys2Proof.Machine Sys2Proof.Safety Sys2Proof.Laws Sys2Proof.Proofs.ZeroKey

/-! ### An enabled diagnostic command (R308, R312) -/

/-- A diagnostic command in range, enabled and initialized, has its effect and the status of a success (R312, R313). -/
theorem exec_enabled {i : Instr} {s : State} (hd : s.diag = true) (hi : s.init = true) (h0 : i ≠ .init)
    (hb : badOperand i (nth s.din 0) = false) : exec i s = .next (succeeded (effectOf i s)) := by
  rw [exec_of_check (check_enabled hd hi h0 hb), succeed_eq]
  rfl

/-! ### Backward undoes forward (R153) -/

/-- At one position, entering and leaving a table undoes entering and leaving its inverse. -/
theorem enterLeave_undo {t t' : Table} (h : ∀ x, Table.at t' (Table.at t x) = x) (p v : Half) :
    Table.at t' (Table.at t (v + p) - p + p) - p = v := by
  rw [BitVec.sub_add_cancel, h, BitVec.add_sub_cancel]

/-- Undoing a chain of maps from its last to its first gives the start. -/
theorem foldr_foldl_of_undo {α β : Type} {f g : α → β → β} {l : List α} (h : ∀ a ∈ l, ∀ x, g a (f a x) = x) (x : β) :
    l.foldr g (l.foldl (fun y a => f a y) x) = x := by
  induction l generalizing x with
  | nil => rfl
  | cons a l ih =>
    rw [List.foldr_cons, List.foldl_cons, ih fun b hb => h b (List.mem_cons_of_mem a hb)]
    exact h a List.mem_cons_self x

/-- Running a chain of maps forward undoes running its inverses from the last to the first. -/
theorem foldl_foldr_of_undo {α β : Type} {f g : α → β → β} {l : List α} (h : ∀ a ∈ l, ∀ x, f a (g a x) = x) (x : β) :
    l.foldl (fun y a => f a y) (l.foldr g x) = x := by
  induction l with
  | nil => rfl
  | cons a l ih =>
    rw [List.foldr_cons, List.foldl_cons, h a List.mem_cons_self]
    exact ih fun b hb => h b (List.mem_cons_of_mem a hb)

theorem lt_of_mem_rotors {r : Nat} (h : r ∈ rotors) : r < 8 := List.mem_range.mp h

/-- A code point of the BMP is the extension of its low half. -/
theorem setWidth_setWidth_of_lt {v : Word} (h : v.toNat < 65536) : (v.setWidth 16).setWidth 32 = v :=
  BitVec.eq_of_toNat_eq (by simp only [BitVec.toNat_setWidth]; omega)

/-- A forward pass inside the BMP is a fold over the rotors of sixteen-bit values (R150). -/
theorem rotorForward_setWidth (rfwd : Bank) (pos : Positions) (x : Half) :
    rotorForward rfwd pos (x.setWidth 32) = (rotors.foldl (fun u r => forwardOne rfwd pos r u) x).setWidth 32 := by
  rw [rotorForward, if_pos (bmp_setWidth x), setWidth_setWidth_half]

/-- A backward pass inside the BMP is a fold over the rotors of sixteen-bit values (R151). -/
theorem rotorBackward_setWidth (rinv : Bank) (pos : Positions) (x : Half) :
    rotorBackward rinv pos (x.setWidth 32) = (rotors.foldr (fun r u => backwardOne rinv pos r u) x).setWidth 32 := by
  rw [rotorBackward, if_pos (bmp_setWidth x), setWidth_setWidth_half]

/-- Settles O53: outside the BMP both passes return the value; inside it each rotor is undone at its own position. -/
theorem backwardUndoesForward : Obligations.BackwardUndoesForward := by
  intro rfwd rinv pos v hinv
  rcases Nat.lt_or_ge v.toNat 65536 with hv | hv
  · have hback : ∀ r ∈ rotors, ∀ x, backwardOne rinv pos r (forwardOne rfwd pos r x) = x := fun r hr x =>
      enterLeave_undo (fun y => (hinv r (lt_of_mem_rotors hr) y).1) (nth pos r) x
    have hforth : ∀ r ∈ rotors, ∀ x, forwardOne rfwd pos r (backwardOne rinv pos r x) = x := fun r hr x =>
      enterLeave_undo (fun y => (hinv r (lt_of_mem_rotors hr) y).2) (nth pos r) x
    rw [← setWidth_setWidth_of_lt hv, rotorForward_setWidth, rotorBackward_setWidth, rotorBackward_setWidth,
      rotorForward_setWidth, foldr_foldl_of_undo hback, foldl_foldr_of_undo hforth]
    exact ⟨rfl, rfl⟩
  · rw [rotorForward_of_le rfwd pos hv, rotorBackward_of_le rinv pos hv, rotorForward_of_le rfwd pos hv]
    exact ⟨rfl, rfl⟩

/-! ### The chain of values of a pass (R150, R151) -/

section

variable {w k : Nat} {f : Nat → BitVec w → BitVec w} {g : Nat → Nat → Nat} {u : Nat → Nat}

/-- A chain of numbers that follows the maps upward ends at the value of their fold. -/
theorem foldl_range_toNat (hf : ∀ r x, (f r x).toNat = g r x.toNat) {x : BitVec w} (h0 : u 0 = x.toNat)
    (hu : ∀ r < k, u (r + 1) = g r (u r)) : ((List.range k).foldl (fun y r => f r y) x).toNat = u k := by
  induction k with
  | zero => exact h0.symm
  | succ k ih =>
    rw [List.range_succ, List.foldl_append, List.foldl_cons, List.foldl_nil, hf,
      ih fun r hr => hu r (Nat.lt_succ_of_lt hr), hu k k.lt_succ_self]

/-- A chain of numbers that follows the maps downward ends at the value of their fold. -/
theorem foldr_range_toNat (hf : ∀ r x, (f r x).toNat = g r x.toNat) {x : BitVec w} (hk : u k = x.toNat)
    (hu : ∀ r < k, u r = g r (u (r + 1))) : ((List.range k).foldr f x).toNat = u 0 := by
  induction k generalizing x with
  | zero => exact hk.symm
  | succ k ih =>
    have hlast : u k = (f k x).toNat := by rw [hu k k.lt_succ_self, hk, hf]
    rw [List.range_succ, List.foldr_append, List.foldr_cons, List.foldr_nil]
    exact ih hlast fun r hr => hu r (Nat.lt_succ_of_lt hr)

end

/-- Rotor `r` of a bank on numbers: enter at its position, leave at it, modulo 65536 (R150, R151). -/
def enterLeave (bank : Bank) (pos : Positions) (r v : Nat) : Nat :=
  ((nth (nth bank r) ((v + (nth pos r).toNat) % 65536)).toNat + 65536 - (nth pos r).toNat) % 65536

theorem forwardOne_toNat (rfwd : Bank) (pos : Positions) (r : Nat) (x : Half) :
    (forwardOne rfwd pos r x).toNat = enterLeave rfwd pos r x.toNat := enterLeave_toNat _ _ _

theorem backwardOne_toNat (rinv : Bank) (pos : Positions) (r : Nat) (x : Half) :
    (backwardOne rinv pos r x).toNat = enterLeave rinv pos r x.toNat := enterLeave_toNat _ _ _

theorem toNat_setWidth_half (x : Half) : (x.setWidth 32).toNat = x.toNat :=
  BitVec.toNat_setWidth_of_le (by decide)

/-- Inside the BMP a forward pass ends where the chain from rotor 0 up to rotor 7 ends (R150). -/
theorem rotorForward_toNat (rfwd : Bank) (pos : Positions) {v : Word} (hv : v.toNat < 65536) {u : Nat → Nat}
    (h0 : u 0 = v.toNat) (hu : ∀ r < 8, u (r + 1) = enterLeave rfwd pos r (u r)) :
    (rotorForward rfwd pos v).toNat = u 8 := by
  rw [← setWidth_setWidth_of_lt hv, toNat_setWidth_half] at h0
  rw [← setWidth_setWidth_of_lt hv, rotorForward_setWidth, toNat_setWidth_half]
  exact foldl_range_toNat (forwardOne_toNat rfwd pos) h0 hu

/-- Inside the BMP a backward pass ends where the chain from rotor 7 down to rotor 0 ends (R151). -/
theorem rotorBackward_toNat (rinv : Bank) (pos : Positions) {v : Word} (hv : v.toNat < 65536) {u : Nat → Nat}
    (h8 : u 8 = v.toNat) (hu : ∀ r < 8, u r = enterLeave rinv pos r (u (r + 1))) :
    (rotorBackward rinv pos v).toNat = u 0 := by
  rw [← setWidth_setWidth_of_lt hv, toNat_setWidth_half] at h8
  rw [← setWidth_setWidth_of_lt hv, rotorBackward_setWidth, toNat_setWidth_half]
  exact foldr_range_toNat (backwardOne_toNat rinv pos) h8 hu

/-- Settles O41: the results are the passes of `DIN[0]`, which bypass the rotors outside the BMP and end their chains of
values in it. -/
theorem rotorPassCommandsRunAllRotors : Obligations.RotorPassCommandsRunAllRotors := by
  intro s hd hi
  refine ⟨rotorForward s.rfwd s.pos (nth s.din 0), rotorBackward s.rinv s.pos (nth s.din 0),
    exec_enabled hd hi (by simp) rfl, exec_enabled hd hi (by simp) rfl, fun hout => ?outside, fun hin => ?inside⟩
  case outside => exact ⟨rotorForward_of_le _ _ hout, rotorBackward_of_le _ _ hout⟩
  case inside =>
    exact ⟨fun _ h0 hu => rotorForward_toNat _ _ hin h0 hu, fun _ h8 hu => rotorBackward_toNat _ _ hin h8 hu⟩

end Sys2Proof.Proofs.RotorPasses
end

section
/-! PROOFS. The rotor step of 41_rotor_bank: the cascade moves a rotor exactly when every rotor below it stands on a notch of
its own after the step (R152, R154). -/

namespace Sys2Proof.Proofs.RotorStep

open Sys2Proof.Machine Sys2Proof.Safety Sys2Proof.Laws Sys2Proof.Proofs.RotorPasses

/-- The model's notch test is the set test of R152. -/
theorem onNotch_iff (s : State) (pos : Positions) (r : Nat) :
    onNotch s.ncnt s.notch pos r = true ↔ StandsOnNotch s pos r := by
  simp [onNotch, StandsOnNotch]

/-- The notch test of a rotor reads its own position alone. -/
theorem onNotch_congr (ncnt : NotchCounts) (notch : NotchSlots) {pos pos' : Positions} {r : Nat}
    (h : nth pos r = nth pos' r) : onNotch ncnt notch pos r = onNotch ncnt notch pos' r := by
  rw [onNotch, onNotch, h]

theorem nth_advance_same (pos : Positions) {r : Nat} (hr : r < 8) : nth (advance pos r) r = nth pos r + 1 :=
  nth_upd_same pos _ hr

theorem nth_advance_ne (pos : Positions) {r q : Nat} (hr : r < 8) (hq : q < 8) (h : q ≠ r) :
    nth (advance pos r) q = nth pos q := nth_upd_ne pos _ hr hq h

section

variable (ncnt : NotchCounts) (notch : NotchSlots)

/-- From a rotor on a notch the loop advances the next rotor and goes on there (R152). -/
theorem cascade_of_onNotch {pos : Positions} {r : Nat} (k : Nat) (h : onNotch ncnt notch pos r = true) :
    cascade ncnt notch (k + 1) r pos = cascade ncnt notch k (r + 1) (advance pos (r + 1)) := if_pos h

/-- At a rotor off its notches the loop stops (R152). -/
theorem cascade_of_not_onNotch {pos : Positions} {r : Nat} (k : Nat) (h : ¬onNotch ncnt notch pos r = true) :
    cascade ncnt notch (k + 1) r pos = pos := if_neg h

/-- The loop from rotor `r` moves only rotors above `r`. -/
theorem nth_cascade_of_le (k : Nat) {r q : Nat} (pos : Positions) (hk : r + k < 8) (hq : q ≤ r) :
    nth (cascade ncnt notch k r pos) q = nth pos q := by
  induction k generalizing r pos with
  | zero => rfl
  | succ k ih =>
    by_cases hr : onNotch ncnt notch pos r = true
    · rw [cascade_of_onNotch _ _ _ hr, ih _ (by omega) (by omega), nth_advance_ne _ (by omega) (by omega) (by omega)]
    · rw [cascade_of_not_onNotch _ _ _ hr]

/-- The rotor the loop tests stands where it will stand after the step, so its test can be made there. -/
theorem onNotch_cascade (k : Nat) {r : Nat} (pos : Positions) (hk : r + k < 8) :
    onNotch ncnt notch (cascade ncnt notch k r pos) r = onNotch ncnt notch pos r :=
  onNotch_congr ncnt notch (nth_cascade_of_le ncnt notch k pos hk r.le_refl)

/-- The loop from rotor `r` moves a rotor above `r` by one exactly when every rotor from `r` up to it stands on a notch of
its own afterwards. -/
theorem nth_cascade_above (k : Nat) {r q : Nat} (pos : Positions) (hk : r + k < 8) (hrq : r < q) (hq : q ≤ r + k) :
    nth (cascade ncnt notch k r pos) q =
      if ∀ j < q, r ≤ j → onNotch ncnt notch (cascade ncnt notch k r pos) j = true then nth pos q + 1 else nth pos q := by
  induction k generalizing r pos with
  | zero => omega
  | succ k ih =>
    have htest := onNotch_cascade ncnt notch (k + 1) pos hk
    by_cases hr : onNotch ncnt notch pos r = true
    · rw [hr] at htest
      rw [cascade_of_onNotch _ _ _ hr] at htest ⊢
      rcases Nat.eq_or_lt_of_le (Nat.succ_le_of_lt hrq) with rfl | hlt
      · have hall : ∀ j < r + 1, r ≤ j →
            onNotch ncnt notch (cascade ncnt notch k (r + 1) (advance pos (r + 1))) j = true := fun j hj hrj => by
          rwa [Nat.le_antisymm (Nat.le_of_lt_succ hj) hrj]
        rw [if_pos hall, nth_cascade_of_le _ _ _ _ (by omega) le_rfl, nth_advance_same _ (by omega)]
      · rw [ih _ (by omega) hlt (by omega), nth_advance_ne _ (by omega) (by omega) (by omega)]
        refine if_congr ⟨fun h j hj hrj => ?_, fun h j hj hrj => h j hj (by omega)⟩ rfl rfl
        rcases Nat.eq_or_lt_of_le hrj with rfl | hrj
        · exact htest
        · exact h j hj hrj
    · rw [if_neg fun h => hr (htest ▸ h r hrq le_rfl), cascade_of_not_onNotch _ _ _ hr]

/-- Rotor 0 advances at every step (R154 item 1). -/
theorem nth_rotorStep_zero (pos : Positions) : nth (rotorStep ncnt notch pos) 0 = nth pos 0 + 1 := by
  rw [rotorStep, nth_cascade_of_le _ _ _ _ (by omega) le_rfl, nth_advance_same _ (by omega)]

end

/-- A rotor above rotor 0 advances by one exactly when every rotor below it stands on a notch of its own after the step
(R154 item 2). -/
theorem nth_stepRotors_above (s : State) {r : Nat} (hr : r < 8) (h1 : 1 ≤ r) :
    ((∀ q < r, StandsOnNotch s s.stepRotors.pos q) → nth s.stepRotors.pos r = nth s.pos r + 1) ∧
      (¬(∀ q < r, StandsOnNotch s s.stepRotors.pos q) → nth s.stepRotors.pos r = nth s.pos r) := by
  have hstep := nth_cascade_above s.ncnt s.notch 7 (advance s.pos 0) (by omega) h1 (by omega)
  rw [nth_advance_ne _ (by omega) hr (by omega)] at hstep
  have hbelow : (∀ q < r, 0 ≤ q → onNotch s.ncnt s.notch s.stepRotors.pos q = true) ↔
      ∀ q < r, StandsOnNotch s s.stepRotors.pos q := by
    simp only [onNotch_iff, Nat.zero_le, forall_const]
  exact ⟨fun h => hstep.trans (if_pos (hbelow.mpr h)), fun h => hstep.trans (if_neg (mt hbelow.mp h))⟩

/-- Settles O42: the step writes the cascade's positions, and each rotor's move is read off the loop from rotor 0. -/
theorem rotStepCascades : Obligations.RotStepCascades := fun s hd hi =>
  ⟨succeeded s.stepRotors, exec_enabled hd hi (by simp) rfl, rfl, nth_rotorStep_zero s.ncnt s.notch s.pos,
    fun _ hr h1 => nth_stepRotors_above s hr h1⟩

end Sys2Proof.Proofs.RotorStep
end

section
/-! PROOFS. The commands that read and write one entry of the rotor state or of a table (41_rotor_bank R158 to R164,
43_block_transform R223, R224): in range each has its effect, on the entry its fields name. -/

namespace Sys2Proof.Proofs.RotorEntries

open Sys2Proof.Machine Sys2Proof.Safety Sys2Proof.Laws Sys2Proof.Proofs.RotorPasses

/-! ### The reads -/

/-- A table index field names the entry of its number (R96). -/
theorem tableAt_tableIndex (t : Table) (idx : Nat) : Table.at t (tableIndex idx) = nth t idx := by
  rw [tableAt_eq_nth, tableIndex, BitVec.toNat_ofNat, nth_mod]

/-- An S-box index field names the entry of its number (R96). -/
theorem byteTableAt_sboxIndex (t : ByteTable) (idx : Nat) : ByteTable.at t (sboxIndex idx) = nth t idx := by
  rw [byteTableAt_eq_nth, sboxIndex, BitVec.toNat_ofNat, nth_mod]

/-- Settles O43: both reads have the value as their effect, and neither operand is out of range. -/
theorem rotorReadbackReturnsTheState : Obligations.RotorReadbackReturnsTheState := by
  intro s hd hi sel hsel
  refine ⟨exec_enabled hd hi (by simp) ?_, fun n hn => exec_enabled hd hi (by simp) ?_⟩
  · simpa [badOperand] using Nat.le_of_lt_succ hsel
  · simpa [badOperand] using And.intro (Nat.le_of_lt_succ hsel) (Nat.le_of_lt_succ hn)

/-- Settles O45: each read has the entry its index field names as its effect. -/
theorem tableReadsReturnTheEntry : Obligations.TableReadsReturnTheEntry := by
  intro s hd hi
  refine ⟨fun sel hsel idx _ => ?rotors, fun idx hidx => ?sboxes⟩
  case rotors =>
    have hrange : decide (sel > 7) = false := decide_eq_false (Nat.not_lt_of_ge (Nat.le_of_lt_succ hsel))
    rw [← tableAt_tableIndex, ← tableAt_tableIndex]
    exact ⟨exec_enabled hd hi (by simp) hrange, exec_enabled hd hi (by simp) hrange⟩
  case sboxes =>
    have hrange : decide (idx > 255) = false := decide_eq_false (Nat.not_lt_of_ge (Nat.le_of_lt_succ hidx))
    rw [← byteTableAt_sboxIndex, ← byteTableAt_sboxIndex]
    exact ⟨exec_enabled hd hi (by simp) hrange, exec_enabled hd hi (by simp) hrange⟩

/-! ### The writes -/

section

variable {s : State} (hd : s.diag = true) (hi : s.init = true) {sel : Nat} (hsel : sel < 8)

include hd hi hsel

/-- `WR_POS` writes one position and nothing else but the status (R159). -/
theorem exec_wrPos (hv : (nth s.din 0).toNat ≤ 0xFFFF) :
    exec (.wrPos sel) s = .next (succeeded { s with pos := upd s.pos sel ((nth s.din 0).setWidth 16) }) :=
  exec_enabled hd hi (by simp) (by simpa [badOperand] using And.intro (Nat.le_of_lt_succ hsel) hv)

/-- `WR_NOTCH` writes one notch slot and nothing else but the status (R161). -/
theorem exec_wrNotch (hv : (nth s.din 0).toNat ≤ 0xFFFF) {n : Nat} (hn : n < 7) :
    exec (.wrNotch sel n) s = .next (succeeded { s with
      notch := upd s.notch sel (upd (nth s.notch sel) n ((nth s.din 0).setWidth 16)) }) :=
  exec_enabled hd hi (by simp) (by
    simpa [badOperand, and_assoc] using And.intro (Nat.le_of_lt_succ hsel) (And.intro (Nat.le_of_lt_succ hn) hv))

/-- `WR_NCNT` writes one notch count and nothing else but the status (R162). -/
theorem exec_wrNcnt (h1 : 1 ≤ (nth s.din 0).toNat) (h7 : (nth s.din 0).toNat ≤ 7) :
    exec (.wrNcnt sel) s = .next (succeeded { s with ncnt := upd s.ncnt sel ((nth s.din 0).setWidth 3) }) :=
  exec_enabled hd hi (by simp) (by
    simp only [badOperand, Bool.or_eq_false_iff, decide_eq_false_iff_not]
    omega)

end

/-- Written to an entry wide enough for it, a value is kept. -/
theorem toNat_nth_upd_setWidth {w n : Nat} [NeZero n] (a : Vector (BitVec w) n) {i : Nat} (hi : i < n) {v : Word}
    (hv : v.toNat < 2 ^ w) : (nth (upd a i (v.setWidth w)) i).toNat = v.toNat := by
  rw [nth_upd_same a _ hi, BitVec.toNat_setWidth, Nat.mod_eq_of_lt hv]

/-- A write to slot `n` of row `sel` leaves every other slot of every row. -/
theorem nth_nth_upd_upd_ne {α : Type} {rows cols : Nat} [NeZero rows] [NeZero cols] (a : Vector (Vector α cols) rows)
    (x : α) {sel n r m : Nat} (hsel : sel < rows) (hn : n < cols) (hr : r < rows) (hm : m < cols) (h : r ≠ sel ∨ m ≠ n) :
    nth (nth (upd a sel (upd (nth a sel) n x)) r) m = nth (nth a r) m := by
  by_cases hrow : r = sel
  · subst hrow
    rw [nth_upd_same _ _ hr, nth_upd_ne _ _ hn hm (h.resolve_left (not_not_intro rfl))]
  · rw [nth_upd_ne _ _ hsel hr hrow]

/-- Settles O44: each write is one `upd` of its array, which holds the value at the entry and leaves the others. -/
theorem rotorWritesWriteOneEntry : Obligations.RotorWritesWriteOneEntry := by
  intro s hd hi sel hsel
  refine ⟨fun hv => ⟨⟨_, exec_wrPos hd hi hsel hv, rfl, ?posEntry, fun r hr => nth_upd_ne _ _ hsel hr⟩,
      fun n hn => ⟨_, exec_wrNotch hd hi hsel hv hn, rfl, ?notchEntry,
        fun r hr m hm => nth_nth_upd_upd_ne _ _ hsel hn hr hm⟩⟩,
    fun h1 h7 => ⟨_, exec_wrNcnt hd hi hsel h1 h7, rfl, ?countEntry, fun r hr => nth_upd_ne _ _ hsel hr⟩⟩
  case posEntry => exact toNat_nth_upd_setWidth _ hsel (Nat.lt_succ_of_le hv)
  case notchEntry =>
    simp only [succeeded, nth_upd_same _ _ hsel]
    exact toNat_nth_upd_setWidth _ hn (Nat.lt_succ_of_le hv)
  case countEntry => exact toNat_nth_upd_setWidth _ hsel (Nat.lt_succ_of_le h7)

end Sys2Proof.Proofs.RotorEntries
end

section
/-! PROOFS. The diagnostic commands of 42_plugboard (R190, R192, R193): both return an entry of the plugboard, and
`PB_APPLY` its operand outside the BMP. -/

namespace Sys2Proof.Proofs.Plugboard

open Sys2Proof.Machine Sys2Proof.Laws Sys2Proof.Proofs.RotorPasses Sys2Proof.Proofs.RotorEntries

/-- `PlugApply` by cases on the number of its operand: the table's entry in the BMP, the operand outside it (R190). -/
theorem plugApply_eq_ite (plug : Table) (v : Word) :
    plugApply plug v = if v.toNat < 65536 then (nth plug v.toNat).setWidth 32 else v := by
  split
  next hin => exact plugApply_of_lt plug hin
  next hout => exact plugApply_of_le plug (Nat.le_of_not_lt hout)

/-- Settles O40: `PB_APPLY` has `PlugApply` of `DIN[0]` as its effect, and `RD_PLUG` the entry its index field names. -/
theorem plugboardCommandsReadTheTable : Obligations.PlugboardCommandsReadTheTable := by
  intro s hd hi
  refine ⟨?apply, fun idx _ => ?read⟩
  case apply =>
    rw [← plugApply_eq_ite]
    exact exec_enabled hd hi (by simp) rfl
  case read =>
    rw [← tableAt_tableIndex]
    exact exec_enabled hd hi (by simp) rfl

end Sys2Proof.Proofs.Plugboard
end

section
/-! PROOFS. The block transform of 43_block_transform: every step is a function of one row, so of one register (R213), three
steps are undone (R205, R211), and the stated `InvMixColumns` leaves only the zero block as it was before `MixColumns`, which
fixes the one block the round trip restores (R212). -/

namespace Sys2Proof.Proofs.BlockTransform

open Sys2Proof.Machine Sys2Proof.Safety Sys2Proof.Laws Sys2Proof.Proofs.RotorPasses

/-! ### Rotating a word by bytes (R13) -/

theorem byteOf_rotateRight (w : Word) (q : Nat) {j : Nat} (hj : j < 4) :
    byteOf (w.rotateRight (8 * q)) j = byteOf w ((j + q) % 4) := by
  refine BitVec.eq_of_getLsbD_eq fun i hi => ?_
  simp only [byteOf, BitVec.getLsbD_extractLsb', BitVec.getLsbD_rotateRight, hi, decide_true,
    Bool.true_and, Bool.cond_eq_ite, decide_eq_true_eq]
  split
  next hlow => congr 1; omega
  next hhigh =>
    rw [decide_eq_true (by omega : 8 * j + i < 32), Bool.true_and]
    congr 2
    omega

theorem byteOf_rotateLeft (w : Word) {q j : Nat} (hq : q < 4) (hj : j < 4) :
    byteOf (w.rotateLeft (8 * q)) j = byteOf w ((j + 4 - q) % 4) := by
  refine BitVec.eq_of_getLsbD_eq fun i hi => ?_
  simp only [byteOf, BitVec.getLsbD_extractLsb', BitVec.getLsbD_rotateLeft, hi, decide_true,
    Bool.true_and, Bool.cond_eq_ite, decide_eq_true_eq]
  split
  next hlow => congr 1; omega
  next hhigh =>
    rw [decide_eq_true (by omega : 8 * j + i < 32), Bool.true_and]
    congr 2
    omega

/-! ### The rows of a block as words (R200, R213) -/

/-- Row `q` of a block as a little-endian word. -/
def rowWord (b : Block) (q : Nat) : Word := word4 (rowByte b q 0) (rowByte b q 1) (rowByte b q 2) (rowByte b q 3)

/-- A block result holds row `q` in register `q` (R74, R98). -/
theorem nth_unblk_eq_rowWord (b : Block) {q : Nat} (hq : q < 4) : nth (unblk b) q = rowWord b q := nth_unblk b hq

/-- A block operand has register `q` as its row `q` (R74). -/
theorem rowWord_blk (w : Vector Word 4) {q : Nat} (hq : q < 4) : rowWord (blk w) q = nth w q := by
  rw [← nth_unblk_eq_rowWord _ hq, unblk_blk]

theorem byteOf_rowWord (b : Block) (q : Nat) {j : Nat} (hj : j < 4) : byteOf (rowWord b q) j = rowByte b q j := by
  rw [rowWord, byteOf_word4 _ _ _ _ hj]
  match j, hj with
  | 0, _ | 1, _ | 2, _ | 3, _ => rfl

theorem byteOf_mapBytes (f : Byte → Byte) (w : Word) {j : Nat} (hj : j < 4) : byteOf (mapBytes f w) j = f (byteOf w j) := by
  rw [mapBytes, byteOf_word4 _ _ _ _ hj]
  match j, hj with
  | 0, _ | 1, _ | 2, _ | 3, _ => rfl

theorem byteOf_keyWord (k : Key) (q : Nat) {j : Nat} (hj : j < 4) : byteOf (keyWord k q) j = nth k (4 * q + j) := by
  rw [keyWord, byteOf_word4 _ _ _ _ hj]
  match j, hj with
  | 0, _ | 1, _ | 2, _ | 3, _ => rfl

/-! ### Every step acts on each row alone (R213) -/

/-- The block function `f` makes each row `q` of its result from row `q` of its operand alone, by `g q`. -/
def ActsOnRows (f : Block → Block) (g : Nat → Word → Word) : Prop :=
  ∀ b : Block, ∀ q < 4, rowWord (f b) q = g q (rowWord b q)

theorem ActsOnRows.comp {f f' : Block → Block} {g g' : Nat → Word → Word} (h' : ActsOnRows f' g')
    (h : ActsOnRows f g) : ActsOnRows (fun b => f' (f b)) fun q w => g' q (g q w) := fun b q hq => by
  rw [h' _ q hq, h _ q hq]

/-- A function that makes each byte of a row from the bytes of that row acts on rows. -/
theorem actsOnRows_of_bytes {f : Block → Block} {g : Nat → Word → Word}
    (h : ∀ b : Block, ∀ q < 4, ∀ j < 4, rowByte (f b) q j = byteOf (g q (rowWord b q)) j) : ActsOnRows f g :=
  fun b q hq => word_ext fun j hj => by rw [byteOf_rowWord _ _ hj, h b q hq j hj]

theorem subBytes_actsOnRows (sbox : ByteTable) :
    ActsOnRows (subBytes sbox) fun _ => mapBytes (ByteTable.at sbox) :=
  actsOnRows_of_bytes fun b q hq j hj => by
    rw [byteOf_mapBytes _ _ hj, byteOf_rowWord _ _ hj]
    exact nth_subBytes sbox b (by omega)

theorem invSubBytes_actsOnRows (isbox : ByteTable) :
    ActsOnRows (invSubBytes isbox) fun _ => mapBytes (ByteTable.at isbox) := subBytes_actsOnRows isbox

theorem shiftRows_actsOnRows : ActsOnRows shiftRows fun q w => w.rotateRight (8 * q) :=
  actsOnRows_of_bytes fun b q hq j hj => by
    rw [byteOf_rotateRight _ _ hj, byteOf_rowWord _ _ (Nat.mod_lt _ (by omega)), rowByte_shiftRows b hq hj]

theorem invShiftRows_actsOnRows : ActsOnRows invShiftRows fun q w => w.rotateLeft (8 * q) :=
  actsOnRows_of_bytes fun b q hq j hj => by
    rw [byteOf_rotateLeft _ hq hj, byteOf_rowWord _ _ (Nat.mod_lt _ (by omega)), rowByte_invShiftRows b hq hj]

theorem mixColumns_actsOnRows : ActsOnRows mixColumns fun _ w => w ^^^ w.rotateRight 8 :=
  actsOnRows_of_bytes fun b q hq j hj => by
    rw [byteOf_xor, byteOf_rotateRight _ 1 hj, byteOf_rowWord _ _ hj,
      byteOf_rowWord _ _ (Nat.mod_lt _ (by omega)), rowByte_mixColumns b hq hj]

theorem invMixColumns_actsOnRows : ActsOnRows invMixColumns fun _ w => w ^^^ w.rotateLeft 8 :=
  actsOnRows_of_bytes fun b q hq j hj => by
    rw [byteOf_xor, byteOf_rotateLeft (q := 1) _ (by omega) hj, byteOf_rowWord _ _ hj,
      byteOf_rowWord _ _ (Nat.mod_lt _ (by omega)), rowByte_invMixColumns b hq hj, BitVec.xor_comm,
      show j + 4 - 1 = j + 3 by omega]

theorem addRoundKey_actsOnRows (k : Key) : ActsOnRows (addRoundKey k) fun q w => w ^^^ keyWord k q :=
  actsOnRows_of_bytes fun b q hq j hj => by
    rw [byteOf_xor, byteOf_rowWord _ _ hj, byteOf_keyWord _ _ hj]
    exact nth_addRoundKey k b (by omega)

/-- `BlockForward` is its four steps, row by row (R209). -/
theorem blockForward_actsOnRows (sbox : ByteTable) (k : Key) :
    ActsOnRows (blockForward sbox k) fun q w =>
      let y := (mapBytes (ByteTable.at sbox) w).rotateRight (8 * q)
      y ^^^ y.rotateRight 8 ^^^ keyWord k q :=
  (addRoundKey_actsOnRows k).comp
    (mixColumns_actsOnRows.comp (shiftRows_actsOnRows.comp (subBytes_actsOnRows sbox)))

/-- `BlockInverse` is its four steps, row by row (R210). -/
theorem blockInverse_actsOnRows (isbox : ByteTable) (k : Key) :
    ActsOnRows (blockInverse isbox k) fun q w =>
      let y := w ^^^ keyWord k q
      mapBytes (ByteTable.at isbox) ((y ^^^ y.rotateLeft 8).rotateLeft (8 * q)) :=
  (invSubBytes_actsOnRows isbox).comp
    (invShiftRows_actsOnRows.comp (invMixColumns_actsOnRows.comp (addRoundKey_actsOnRows k)))

/-! ### The commands (R214 to R222) -/

/-- On the registers, a function that acts on rows is four functions of one register each (R74, R213). -/
theorem ActsOnRows.unblk_blk {f : Block → Block} {g : Nat → Word → Word} (h : ActsOnRows f g) (w : Vector Word 4) :
    unblk (f (blk w)) = Vector.ofFn fun q : Fin 4 => g q w[q] := by
  refine nth_ext fun q hq => ?_
  rw [nth_unblk_eq_rowWord _ hq, h _ q hq, rowWord_blk w hq, nth_ofFn _ hq, nth_of_lt w hq]
  rfl

/-- A command that transforms the block operand by a function that acts on rows, enabled and initialized: `DOUT[q]` comes
from `DIN[q]` alone, and nothing else changes but the status. -/
theorem exec_of_actsOnRows {i : Instr} {f : Block → Block} {g : Nat → Word → Word} {s : State} (hf : ActsOnRows f g)
    (hd : s.diag = true) (hi : s.init = true) (h0 : i ≠ .init) (hb : badOperand i (nth s.din 0) = false)
    (he : effectOf i s = transform f s) :
    exec i s = .next (succeeded { s with dout := Vector.ofFn fun q : Fin 4 => g q s.din[q] }) := by
  rw [exec_enabled hd hi h0 hb, he, ← hf.unblk_blk]
  rfl

/-- The same function of every register, as one `map`. -/
theorem ofFn_getElem_eq_map {α β : Type} {n : Nat} (f : α → β) (v : Vector α n) :
    (Vector.ofFn fun q : Fin n => f v[q]) = v.map f := by
  ext q hq
  simp

/-- Settles O46: each step acts on rows, and four of them in the same way on every row. -/
theorem blockStepCommandsActOnRows : Obligations.BlockStepCommandsActOnRows := by
  intro s hd hi
  -- Their row functions depend on `q`, so the step fixes `g` here before the goal's form is seen.
  have hshr := exec_of_actsOnRows (i := .btShr) shiftRows_actsOnRows hd hi (by simp) rfl rfl
  have hishr := exec_of_actsOnRows (i := .btIshr) invShiftRows_actsOnRows hd hi (by simp) rfl rfl
  simp only [← ofFn_getElem_eq_map]
  exact ⟨exec_of_actsOnRows (subBytes_actsOnRows s.sbox) hd hi (by simp) rfl rfl,
    exec_of_actsOnRows (invSubBytes_actsOnRows s.isbox) hd hi (by simp) rfl rfl,
    hshr, hishr,
    exec_of_actsOnRows mixColumns_actsOnRows hd hi (by simp) rfl rfl,
    exec_of_actsOnRows invMixColumns_actsOnRows hd hi (by simp) rfl rfl,
    exec_of_actsOnRows (addRoundKey_actsOnRows s.mkey) hd hi (by simp) rfl rfl⟩

/-- Settles O47: both transforms are compositions of steps that act on rows. -/
theorem blockTransformCommandsActOnRows : Obligations.BlockTransformCommandsActOnRows := fun s hd hi =>
  ⟨exec_of_actsOnRows (blockForward_actsOnRows s.sbox s.mkey) hd hi (by simp) rfl rfl,
    exec_of_actsOnRows (blockInverse_actsOnRows s.isbox s.mkey) hd hi (by simp) rfl rfl⟩

/-! ### Steps that are undone (R205, R211 items 1 to 3) -/

/-- Substituting by one table and then by another that undoes it restores the block. -/
theorem subBytes_subBytes {t t' : ByteTable} (h : ∀ x, ByteTable.at t' (ByteTable.at t x) = x) (b : Block) :
    subBytes t' (subBytes t b) = b :=
  nth_ext fun i hi => by rw [nth_subBytes _ _ hi, nth_subBytes _ _ hi, h]

theorem invSubBytes_subBytes {sbox isbox : ByteTable} (h : SboxesInverse sbox isbox) (b : Block) :
    invSubBytes isbox (subBytes sbox b) = b := subBytes_subBytes (fun x => (h x).1) b

theorem subBytes_invSubBytes {sbox isbox : ByteTable} (h : SboxesInverse sbox isbox) (b : Block) :
    subBytes sbox (invSubBytes isbox b) = b := subBytes_subBytes (fun x => (h x).2) b

theorem invShiftRows_shiftRows (b : Block) : invShiftRows (shiftRows b) = b :=
  row_ext fun q hq j hj => by
    rw [rowByte_invShiftRows _ hq hj, rowByte_shiftRows _ hq (Nat.mod_lt _ (by omega)),
      show ((j + 4 - q) % 4 + q) % 4 = j by omega]

theorem shiftRows_invShiftRows (b : Block) : shiftRows (invShiftRows b) = b :=
  row_ext fun q hq j hj => by
    rw [rowByte_shiftRows _ hq hj, rowByte_invShiftRows _ hq (Nat.mod_lt _ (by omega)),
      show ((j + q) % 4 + 4 - q) % 4 = j by omega]

theorem addRoundKey_addRoundKey (k : Key) (b : Block) : addRoundKey k (addRoundKey k b) = b :=
  nth_ext fun i hi => by
    rw [nth_addRoundKey _ _ hi, nth_addRoundKey _ _ hi, BitVec.xor_assoc, BitVec.xor_self, BitVec.xor_zero]

/-! ### `MixColumns` and its stated inverse (R203, R206, R211 items 4 and 5) -/

@[simp] theorem rowByte_replicate (a : Byte) (q j : Nat) : rowByte (Vector.replicate 16 a) q j = a := nth_replicate _ _

theorem xor_xor_cancel_middle (a b c : Byte) : (a ^^^ b) ^^^ (b ^^^ c) = a ^^^ c := by
  rw [BitVec.xor_assoc, ← BitVec.xor_assoc b, BitVec.xor_self, BitVec.zero_xor]

/-- `MixColumns` sends every constant block to zero. -/
theorem mixColumns_replicate (a : Byte) : mixColumns (Vector.replicate 16 a) = Vector.replicate 16 0 :=
  row_ext fun q hq j hj => by simp [rowByte_mixColumns _ hq hj]

/-- Every byte of a group enters two bytes of the mixed group. -/
theorem mixColumns_group_xor (b : Block) {q : Nat} (hq : q < 4) :
    rowByte (mixColumns b) q 0 ^^^ rowByte (mixColumns b) q 1 ^^^ rowByte (mixColumns b) q 2 ^^^
      rowByte (mixColumns b) q 3 = 0 := by
  have hmix {j : Nat} (hj : j < 4) := rowByte_mixColumns b hq hj
  rw [hmix (j := 0) (by omega), hmix (j := 1) (by omega), hmix (j := 2) (by omega), hmix (j := 3) (by omega),
    xor_xor_cancel_middle, xor_xor_cancel_middle, xor_xor_cancel_middle]
  exact BitVec.xor_self

theorem mixColumns_not_injective : ¬Function.Injective mixColumns := fun hinj => by
  have hconst : (Vector.replicate 16 0 : Block) = Vector.replicate 16 1 :=
    hinj ((mixColumns_replicate 0).trans (mixColumns_replicate 1).symm)
  have hbyte : (0 : Byte) = 1 := by simpa using congrArg (nth · 0) hconst
  exact absurd hbyte (by decide)

/-- After `MixColumns`, `InvMixColumns` leaves the XOR of a byte's two neighbours in its group. -/
theorem rowByte_invMixColumns_mixColumns (b : Block) {q j : Nat} (hq : q < 4) (hj : j < 4) :
    rowByte (invMixColumns (mixColumns b)) q j = rowByte b q ((j + 1) % 4) ^^^ rowByte b q ((j + 3) % 4) := by
  rw [rowByte_invMixColumns _ hq hj, rowByte_mixColumns b hq hj, rowByte_mixColumns b hq (Nat.mod_lt _ (by omega)),
    show ((j + 3) % 4 + 1) % 4 = j by omega, xor_xor_cancel_middle, BitVec.xor_comm]

/-- Settles O54: the identities step by step; bytes 1 and 2 of a group have their neighbours in the other order. -/
theorem blockStepIdentities : Obligations.BlockStepIdentities := by
  refine ⟨fun _ _ b h => invSubBytes_subBytes h b, invShiftRows_shiftRows, addRoundKey_addRoundKey,
    fun b _ hg => mixColumns_group_xor b hg, mixColumns_not_injective, fun b g hg => ?_⟩
  have hmix {j : Nat} (hj : j < 4) := rowByte_invMixColumns_mixColumns b hg hj
  exact ⟨hmix (j := 0) (by omega), (hmix (j := 1) (by omega)).trans (BitVec.xor_comm _ _),
    (hmix (j := 2) (by omega)).trans (BitVec.xor_comm _ _), hmix (j := 3) (by omega)⟩

/-! ### The round trip (R212) -/

/-- `InvMixColumns` restores a mixed block exactly when the block is zero: opposite bytes of a group get the same value, so
they were equal, and every byte is then the XOR of two equal ones. -/
theorem invMixColumns_mixColumns_eq_self_iff (b : Block) :
    invMixColumns (mixColumns b) = b ↔ b = Vector.replicate 16 0 := by
  refine ⟨fun hfix => row_ext fun q hq j hj => ?zero, ?fixed⟩
  case zero =>
    have hmod (m : Nat) : m % 4 < 4 := Nat.mod_lt m (by omega)
    have hneighbours {i : Nat} (hi : i < 4) :
        rowByte b q i = rowByte b q ((i + 1) % 4) ^^^ rowByte b q ((i + 3) % 4) := by
      rw [← rowByte_invMixColumns_mixColumns b hq hi, hfix]
    have hopposite {i : Nat} (hi : i < 4) : rowByte b q ((i + 2) % 4) = rowByte b q i := by
      rw [hneighbours (hmod _), hneighbours hi, BitVec.xor_comm, show ((i + 2) % 4 + 3) % 4 = (i + 1) % 4 by omega,
        show ((i + 2) % 4 + 1) % 4 = (i + 3) % 4 by omega]
    rw [hneighbours hj, show (j + 3) % 4 = ((j + 1) % 4 + 2) % 4 by omega, hopposite (hmod _)]
    simp
  case fixed =>
    rintro rfl
    rw [mixColumns_replicate]
    exact row_ext fun q hq j hj => by simp [rowByte_invMixColumns _ hq hj]

/-- The key cancels in the round trip. -/
theorem blockInverse_blockForward (sbox isbox : ByteTable) (k : Key) (b : Block) :
    blockInverse isbox k (blockForward sbox k b) =
      invSubBytes isbox (invShiftRows (invMixColumns (mixColumns (shiftRows (subBytes sbox b))))) := by
  rw [blockInverse, blockForward, addRoundKey_addRoundKey]

/-- The outer steps of both transforms are undone, so what `BlockInverse` ends with can be moved to the other side. -/
theorem invSubBytes_invShiftRows_eq_iff {sbox isbox : ByteTable} (h : SboxesInverse sbox isbox) (x b : Block) :
    invSubBytes isbox (invShiftRows x) = b ↔ x = shiftRows (subBytes sbox b) := by
  constructor
  · rintro rfl
    rw [subBytes_invSubBytes h, shiftRows_invShiftRows]
  · rintro rfl
    rw [invShiftRows_shiftRows, invSubBytes_subBytes h]

theorem invSubBytes_invShiftRows_replicate (isbox : ByteTable) (a : Byte) :
    invSubBytes isbox (invShiftRows (Vector.replicate 16 a)) = Vector.replicate 16 (ByteTable.at isbox a) := by
  have hshift : invShiftRows (Vector.replicate 16 a) = Vector.replicate 16 a :=
    row_ext fun q hq j hj => by simp [rowByte_invShiftRows _ hq hj]
  rw [hshift]
  exact nth_ext fun i hi => by simp [nth_invSubBytes _ _ hi]

/-- Settles O55: between the outer steps the round trip is `InvMixColumns` after `MixColumns`, which restores the zero block
alone. -/
theorem blockRoundTripRestoresOneBlock : Obligations.BlockRoundTripRestoresOneBlock := by
  intro sbox isbox k h b
  calc blockInverse isbox k (blockForward sbox k b) = b
      ↔ invMixColumns (mixColumns (shiftRows (subBytes sbox b))) = shiftRows (subBytes sbox b) := by
        rw [blockInverse_blockForward, invSubBytes_invShiftRows_eq_iff h]
    _ ↔ Vector.replicate 16 0 = shiftRows (subBytes sbox b) := by
        rw [invMixColumns_mixColumns_eq_self_iff, eq_comm]
    _ ↔ b = Vector.replicate 16 (ByteTable.at isbox 0) := by
        rw [← invSubBytes_invShiftRows_eq_iff h, invSubBytes_invShiftRows_replicate, eq_comm]

end Sys2Proof.Proofs.BlockTransform
end

section
/-! PROOFS. The unit commands of 44_chaining: what each makes of one unit (R241, R242, R246, R247), that both directions feed
back the ciphertext (R243, R245), and which units decrypt correctly (R244, R248). -/

namespace Sys2Proof.Proofs.Chaining

open Sys2Proof.Machine Sys2Proof.Safety Sys2Proof.Laws Sys2Proof.Proofs.ZeroKey Sys2Proof.Proofs.BlockTransform

/-! ### A unit command in an initialized context (R308, R312) -/

/-- A unit command in an initialized context has its effect and the status of a success (R312, R313). -/
theorem exec_initialized {i : Instr} {s : State} (hi : s.init = true) (h : isDiagnostic i = false) (h0 : i ≠ .init) :
    exec i s = .next (succeed (effectOf i s)) := exec_of_check (check_initialized hi h h0)

/-- The one state a unit command leads to from an initialized context. -/
theorem eq_of_exec_initialized {i : Instr} {s t : State} (hi : s.init = true) (h : isDiagnostic i = false) (h0 : i ≠ .init)
    (hx : exec i s = .next t) : t = succeed (effectOf i s) :=
  (Host.Outcome.next.inj ((exec_initialized hi h h0).symm.trans hx)).symm

/-! ### Words, results and the low bytes of `CREG` (R13, R98, R240) -/

/-- `bytes4` inverts `word4` (R13). -/
theorem bytes4_joinBytes (o : Vector Byte 4) : bytes4 (joinBytes o) = o :=
  nth_ext fun k hk => by rw [nth_bytes4 _ hk, byteOf_joinBytes _ hk]

/-- Above `DOUT[0]` a value result is zero (R98). -/
theorem nth_value_above (c : Word) {k : Nat} (hk : k < 4) (h0 : 0 < k) : nth (#v[c, 0, 0, 0] : Vector Word 4) k = 0 := by
  match k, hk, h0 with
  | 1, _, _ | 2, _, _ | 3, _, _ => rfl

theorem nth_writeCregLow_bytes4 (c : Block) (w : Word) {k : Nat} (hk : k < 4) :
    nth (writeCregLow c (bytes4 w)) k = byteOf w k := by
  rw [nth_writeCregLow _ _ (by omega), if_pos hk, nth_bytes4 _ hk]

theorem nth_writeCregLow_above (c : Block) (o : Vector Byte 4) {i : Nat} (hi : i < 16) (h4 : 4 ≤ i) :
    nth (writeCregLow c o) i = nth c i := by
  rw [nth_writeCregLow _ _ hi, if_neg (by omega)]

/-! ### One character unit (R241 to R243) -/

/-- The effect of `CENC` on `CREG`: its low bytes take the output unit (R241). -/
theorem encryptChar_feeds_output (s : State) :
    (encryptChar s).creg = writeCregLow s.creg (bytes4 (nth (encryptChar s).dout 0)) :=
  congrArg (writeCregLow s.creg) (bytes4_joinBytes _).symm

/-- Settles O31: the output is `cenc_dout`, and its bytes are what `CREG` takes. -/
theorem cencEncryptsOneUnit : Obligations.CencEncryptsOneUnit := by
  intro s hi
  have hx := exec_initialized (i := .cenc) hi rfl (by simp)
  refine ⟨_, hx, rfl, cenc_dout hi hx, fun k hk h0 => nth_value_above _ hk h0, fun k hk => ?low,
    fun i hlt h4 => nth_writeCregLow_above _ _ hlt h4, succeed_eq _⟩
  case low => exact (congrArg (nth · k) (encryptChar_feeds_output s)).trans (nth_writeCregLow_bytes4 _ _ hk)

/-- Settles O32: the output is `cdec_dout`, and `CREG` takes the bytes of the input. -/
theorem cdecDecryptsOneUnit : Obligations.CdecDecryptsOneUnit := by
  intro s hi
  have hx := exec_initialized (i := .cdec) hi rfl (by simp)
  exact ⟨_, hx, rfl, cdec_dout hi hx, fun k hk h0 => nth_value_above _ hk h0,
    fun k hk => nth_writeCregLow_bytes4 _ _ hk, fun i hlt h4 => nth_writeCregLow_above _ _ hlt h4, succeed_eq _⟩

/-- Settles O35: `CENC` feeds back its output and `CDEC` its input, which are one unit here, and both step the rotors. -/
theorem characterSidesStayInStep : Obligations.CharacterSidesStayInStep := by
  intro s t s' t' hsi hti hcreg hpos hncnt hnotch hs hdin ht
  obtain rfl := eq_of_exec_initialized hsi rfl (by simp) hs
  obtain rfl := eq_of_exec_initialized hti rfl (by simp) ht
  refine ⟨?creg, ?pos, hncnt, hnotch⟩
  case creg =>
    calc (encryptChar s).creg
        = writeCregLow s.creg (bytes4 (nth (encryptChar s).dout 0)) := encryptChar_feeds_output s
      _ = writeCregLow t.creg (bytes4 (nth t.din 0)) := by rw [hcreg, hdin]; rfl
  case pos =>
    change rotorStep s.ncnt s.notch s.pos = rotorStep t.ncnt t.notch t.pos
    rw [hncnt, hnotch, hpos]

/-! ### Which character units decrypt correctly (R244) -/

/-- With equal `CREG` the two feedback XORs cancel: what is left is the two mixes, one after the other. -/
theorem cdec_dout_of_cenc {s t s' t' : State} (hsi : s.init = true) (hti : t.init = true) (hcreg : s.creg = t.creg)
    (hs : exec .cenc s = .next s') (hdin : nth t.din 0 = nth s'.dout 0) (ht : exec .cdec t = .next t') :
    nth t'.dout 0 = decryptValue t (encryptValue s (nth s.din 0)) := by
  rw [cdec_dout hti ht, hdin, cenc_dout hsi hs, hcreg, BitVec.xor_assoc, BitVec.xor_self, BitVec.xor_zero]

/-- Settles O36: the passes that have to compose to the identity are those of the two mixes. -/
theorem unitDecryptsExactlyWhenPassesCompose : Obligations.UnitDecryptsExactlyWhenPassesCompose := by
  intro s t s' t' hsi hti hcreg hpos hncnt hnotch hrfwd hrinv hplug hs hdin ht
  have hstep : s'.pos = rotorStep s.ncnt s.notch s.pos := by
    rw [eq_of_exec_initialized hsi rfl (by simp) hs]
    rfl
  have hmix (v : Word) : decryptValue t v =
      plugApply s.plug (rotorForward s.rfwd s'.pos (rotorBackward s.rinv s.pos v)) := by
    rw [hstep, hplug, hrfwd, hrinv, hncnt, hnotch, hpos]
    rfl
  rw [cdec_dout_of_cenc hsi hti hcreg hs hdin ht, hmix, hstep]
  rfl

/-- Outside the BMP no stage of `CENC` changes the unit (R15, R150, R151, R190). -/
theorem encryptValue_of_le (s : State) {v : Word} (h : 65536 ≤ v.toNat) : encryptValue s v = v := by
  rw [encryptValue, State.forward, State.backward, plugApply_of_le _ h, rotorForward_of_le _ _ h, rotorBackward_of_le _ _ h]

/-- Outside the BMP no stage of `CDEC` changes the unit. -/
theorem decryptValue_of_le (s : State) {v : Word} (h : 65536 ≤ v.toNat) : decryptValue s v = v := by
  rw [decryptValue, State.backward, State.forward, rotorBackward_of_le _ _ h, rotorForward_of_le _ _ h, plugApply_of_le _ h]

/-- Settles O37: neither mix changes a unit outside the BMP. -/
theorem unitsOutsideBmpRoundTrip : Obligations.UnitsOutsideBmpRoundTrip := by
  intro s t s' t' hsi hti hcreg hout hs hdin ht
  rw [cdec_dout_of_cenc hsi hti hcreg hs hdin ht, encryptValue_of_le s hout, decryptValue_of_le t hout]

/-! ### One block (R245 to R247) -/

/-- A block result holds byte `i` of the block in byte `i mod 4` of word `i div 4` (R74, R98). -/
theorem byteOf_nth_unblk (b : Block) {i : Nat} (hi : i < 16) : byteOf (nth (unblk b) (i / 4)) (i % 4) = nth b i := by
  rw [← nth_blk _ hi, blk_unblk]

/-- Settles O33: the operand of the transform is fixed by its sixteen bytes, and `DOUT` holds the new `BREG`. -/
theorem bencEncryptsOneBlock : Obligations.BencEncryptsOneBlock := by
  intro s hi
  refine ⟨_, exec_initialized (i := .benc) hi rfl (by simp), fun w hw => ?breg, fun i hlt => byteOf_nth_unblk _ hlt,
    succeed_eq _⟩
  have hoperand : xorBytes (blockOperand s) s.breg = w := nth_ext fun i hlt => by
    rw [nth_xorBytes _ _ hlt, blockOperand, nth_blk _ hlt, hw i hlt]
  exact congrArg (blockForward s.sbox s.mkey) hoperand

/-- Settles O34: `BREG` takes the operand block, and the old `BREG` is XORed to its inverse transform. -/
theorem bdecDecryptsOneBlock : Obligations.BdecDecryptsOneBlock := by
  intro s hi
  exact ⟨_, exec_initialized (i := .bdec) hi rfl (by simp), fun i hlt => nth_blk _ hlt,
    fun i hlt => (byteOf_nth_unblk _ hlt).trans (nth_xorBytes _ _ hlt), succeed_eq _⟩

/-! ### Which blocks decrypt correctly (R248) -/

theorem unblk_eq_iff (b : Block) (w : Vector Word 4) : unblk b = w ↔ b = blk w := by
  constructor
  · rintro rfl
    exact (blk_unblk b).symm
  · rintro rfl
    exact unblk_blk w

theorem xorBytes_xorBytes {n : Nat} [NeZero n] (a b : Vector Byte n) : xorBytes (xorBytes a b) b = a :=
  nth_ext fun i hi => by
    rw [nth_xorBytes _ _ hi, nth_xorBytes _ _ hi, BitVec.xor_assoc, BitVec.xor_self, BitVec.xor_zero]

theorem xorBytes_eq_iff {n : Nat} [NeZero n] (a b c : Vector Byte n) : xorBytes a b = c ↔ a = xorBytes c b := by
  constructor
  · rintro rfl
    exact (xorBytes_xorBytes a b).symm
  · rintro rfl
    exact xorBytes_xorBytes c b

theorem eq_replicate_iff_nth {α : Type} {n : Nat} [NeZero n] (v : Vector α n) (a : α) :
    v = Vector.replicate n a ↔ ∀ i < n, nth v i = a := by
  constructor
  · rintro rfl i -
    exact nth_replicate a i
  · exact fun h => nth_ext fun i hi => by rw [h i hi, nth_replicate]

/-- `BDEC` of a `BENC` output, with equal `BREG`, `ISBOX` and key: `BREG` is the same on both sides, and `DOUT` is the round
trip of the operand XOR the old `BREG`, XOR that `BREG` again. -/
theorem bdec_of_benc {s t s' t' : State} (hsi : s.init = true) (hti : t.init = true) (hbreg : s.breg = t.breg)
    (hisbox : s.isbox = t.isbox) (hmkey : s.mkey = t.mkey) (hs : exec .benc s = .next s') (hdin : t.din = s'.dout)
    (ht : exec .bdec t = .next t') :
    s'.breg = t'.breg ∧ t'.dout = unblk (xorBytes
      (blockInverse s.isbox s.mkey (blockForward s.sbox s.mkey (xorBytes (blk s.din) s.breg))) s.breg) := by
  obtain rfl := eq_of_exec_initialized hsi rfl (by simp) hs
  obtain rfl := eq_of_exec_initialized hti rfl (by simp) ht
  have hoperand : blockOperand t = blockForward s.sbox s.mkey (xorBytes (blk s.din) s.breg) := by
    rw [blockOperand, hdin]
    exact blk_unblk _
  refine ⟨hoperand.symm, ?_⟩
  rw [← hoperand, hisbox, hmkey, hbreg]
  rfl

/-- Taking the feedback to the other side leaves the round trip of the block transform, which restores sixteen bytes of
`ISBOX[0]` alone (R212). -/
theorem feedback_roundTrip_iff {sbox isbox : ByteTable} (h : SboxesInverse sbox isbox) (k : Key) (c : Block)
    (w : Vector Word 4) :
    unblk (xorBytes (blockInverse isbox k (blockForward sbox k (xorBytes (blk w) c))) c) = w ↔
      xorBytes (blk w) c = Vector.replicate 16 (ByteTable.at isbox 0) := by
  rw [unblk_eq_iff, xorBytes_eq_iff]
  exact blockRoundTripRestoresOneBlock sbox isbox k h _

/-- Settles O39: the block decrypts exactly when its operand XOR the old `BREG` is the one block the round trip restores. -/
theorem blockDecryptsExactlyAtIsboxZero : Obligations.BlockDecryptsExactlyAtIsboxZero := by
  intro s t s' t' hsi hti hinv hbreg hisbox hmkey hs hdin ht
  obtain ⟨hkeep, hdout⟩ := bdec_of_benc hsi hti hbreg hisbox hmkey hs hdin ht
  refine ⟨hkeep, ?_⟩
  rw [hdout, feedback_roundTrip_iff hinv, eq_replicate_iff_nth]
  refine forall₂_congr fun i hi => ?_
  rw [nth_xorBytes _ _ hi, nth_blk _ hi]

end Sys2Proof.Proofs.Chaining
end

section
/-! PROOFS. The context commands of 45_context: what `INIT` builds from the staged key (R271), where `MSGRST` takes the
message back to (R272), and what `TEARDOWN` erases (R273). -/

namespace Sys2Proof.Proofs.Context

open Sys2Proof.Machine Sys2Proof.Laws Sys2Proof.Proofs.Scope Sys2Proof.Proofs.KeySchedule Sys2Proof.Proofs.Chaining

/-! ### The derived arrays from the key's bytes (R123 to R127) -/

/-- The index of a key byte wraps at 32 (R121 to R132). -/
theorem keyByte_eq_nth_mod (k : Key) (j : Nat) : keyByte k j = nth k (j % 32) := (nth_mod k j).symm

section

variable (k : Key) {r : Nat} (hr : r < 8)
include hr

/-- A rotor's forward table is shuffled with the key bytes from the rotor's own index on (R126). -/
theorem nth_ksForwardBank_eq_shuffle :
    nth (ksForwardBank k) r = shuffle 16 65536 fun i => nth k ((r + i) % 32) := by
  rw [nth_ksForwardBank k hr, ksRfwd]
  exact congrArg _ (funext fun i => keyByte_eq_nth_mod k (r + i))

/-- A rotor's inverse table is the inverse of its forward table (R127). -/
theorem nth_ksInverseBank_eq_invertTable : nth (ksInverseBank k) r = invertTable (nth (ksForwardBank k) r) := by
  rw [nth_ksInverseBank k hr, nth_ksForwardBank k hr, ksRinv]

/-- A rotor starts a message at its key byte (R123). -/
theorem nth_ksPositions_toNat : (nth (ksPositions k) r).toNat = (nth k r).toNat := by
  rw [nth_ksPositions k hr, ksPos_toNat, keyByte]

/-- A notch count is at most 7, so its three bits hold its value (R39, R124). -/
theorem nth_ksNotchCounts_toNat : (nth (ksNotchCounts k) r).toNat = (nth k ((r + 1) % 32)).toNat % 7 + 1 := by
  rw [nth_ksNotchCounts k hr, ksNcnt, keyByte_eq_nth_mod, BitVec.toNat_ofNat, Nat.mod_eq_of_lt (by omega)]

/-- A slot below the notch count holds its key byte times 251, the others are zero (R125). -/
theorem nth_ksNotchSlots_toNat {n : Nat} (hn : n < 7) : (nth (nth (ksNotchSlots k) r) n).toNat =
    if n < (nth (ksNotchCounts k) r).toNat then (nth k ((r + n + 2) % 32)).toNat * 251 % 65536 else 0 := by
  rw [nth_ksNotchSlots k hr hn, nth_ksNotchCounts k hr, ksNotch]
  split
  · rw [keyByte_eq_nth_mod, BitVec.toNat_ofNat, Config.mult]
  · rfl

end

/-- Both chaining registers are zero at the start of a message (R45, R46). -/
theorem nth_zeroBlock (i : Nat) : nth zeroBlock i = 0 := nth_replicate 0 i

/-- At the empty parameter the plugboard is the default formula's (R128, R129). -/
theorem ksPlug_nil (k : Key) : ksPlug [] k = ksPlugWith defaultPlugPair k :=
  congrArg (ksPlugWith · k) plugPair_nil

/-! ### The three commands -/

/-- Settles O27: with every key word staged, `INIT` loads the context of the staged key, and each of its parts is the key
schedule's of that key. -/
theorem initBuildsTheContext : Obligations.InitBuildsTheContext := by
  intro s hk
  refine ⟨_, exec_init_of_staged hk, fun j hj => nth_stagedKey s.key hj, fun r hr => ?rotor, rfl,
    fun hp => ?defaultPlug, ksSbox_eq_shuffle_mod s.sboxKeyOffset _, rfl, fun i _ => ⟨nth_zeroBlock i, nth_zeroBlock i⟩,
    fun j _ => nth_replicate 0 j, succeed_eq _⟩
  case rotor =>
    exact ⟨nth_ksForwardBank_eq_shuffle _ hr, nth_ksInverseBank_eq_invertTable _ hr, nth_ksPositions_toNat _ hr,
      nth_ksNotchCounts_toNat _ hr, fun n hn => nth_ksNotchSlots_toNat _ hr hn⟩
  case defaultPlug =>
    rw [succeed_plug, loadContext_plug, hp]
    exact ksPlug_nil _

/-- Settles O28: the positions are those of the key the context holds, the chaining registers are the zero block, and
`succeed_eq` is the frame. -/
theorem msgrstRewindsTheMessage : Obligations.MsgrstRewindsTheMessage := fun s hi =>
  ⟨_, exec_initialized hi rfl (by simp), fun _ hr => nth_ksPositions_toNat s.mkey hr,
    fun i _ => ⟨nth_zeroBlock i, nth_zeroBlock i⟩, succeed_eq _⟩

/-- Settles O29: every erased array repeats zero, and `succeed_eq` is the frame. -/
theorem teardownErasesTheContext : Obligations.TeardownErasesTheContext := fun _ hi =>
  ⟨_, exec_initialized hi rfl (by simp), fun j _ => nth_replicate 0 j, fun i _ => ⟨nth_zeroBlock i, nth_zeroBlock i⟩,
    fun j _ => nth_replicate 0 j, fun k _ => ⟨nth_replicate 0 k, nth_replicate 0 k⟩, succeed_eq _⟩

end Sys2Proof.Proofs.Context
end

section
/-! PROOFS. The statements of 60_exceptions: the order of the checks (R308), what a failed and a successful completion
write (R309, R313), and the interrupt (R320). -/

namespace Sys2Proof.Proofs.Exceptions

open Sys2Proof.Machine Sys2Proof.Safety Sys2Proof.Laws Sys2Proof.Proofs.Scope Sys2Proof.Proofs.Turn
  Sys2Proof.Proofs.Encoding Sys2Proof.Proofs.Memory

/-! ### The first failing check (R304, R308) -/

/-- A word outside the opcode table does not decode (R94, R304). -/
theorem decode_eq_none_of_notInTable {w : Word} (h : ¬InOpcodeTable w) : decode w = none := by
  rwa [← decodeFollowsOpcodeTable w, Option.not_isSome_iff_eq_none] at h

theorem fail_eq_failedWith (e : Err) (s : State) : fail e s = failedWith e.code s := fail_eq e s

/-- No other check is made of a word that does not decode (R304). -/
theorem engineTurn_of_notInTable {s : State} (hb : s.busy = true) (h : ¬InOpcodeTable s.pending) :
    engineTurn s = .next (failedWith 5 s) := by
  have hd : decode s.pending = none := decode_eq_none_of_notInTable h
  simp [engineTurn, completion, fetchCommand, hb, hd, fail_eq_failedWith, Err.code]

/-- The error of the first failing check is the one taken (R308, R309). -/
theorem engineTurn_of_check_some {s : State} {i : Instr} {e : Err} (hb : s.busy = true) (hd : decode s.pending = some i)
    (hc : check i s = some e) : engineTurn s = .next (failedWith e.code s) := by
  rw [engineTurn_of_decode hb hd, exec_eq_command, command_of_some _ hc, fail_eq_failedWith]

theorem engineTurn_of_check_none {s : State} {i : Instr} (hb : s.busy = true) (hd : decode s.pending = some i)
    (hc : check i s = none) : engineTurn s = .next (succeed (effectOf i s)) := by
  rw [engineTurn_of_decode hb hd, exec_of_check hc]

/-- Settles O7: the decoding check is made before the context and the diagnostic enable are looked at. -/
theorem illegalWordReportsIllegalCommand : Obligations.IllegalWordReportsIllegalCommand :=
  fun _ hb h => engineTurn_of_notInTable hb h

/-- Settles O8: an access, a reset and the engine's turn each answer a next state. -/
theorem everyStepProceeds : Obligations.EveryStepProceeds := step_proceeds

/-- The diagnostic commands are those with an opcode from 0x20 on (R105). -/
theorem isDiagnostic_iff_opcode (i : Instr) : isDiagnostic i = true ↔ 0x20 ≤ opcode i := by
  cases i <;> simp [isDiagnostic, opcode]

/-- `INIT` alone has opcode 0x01 (R92). -/
theorem eq_init_iff_opcode (i : Instr) : i = .init ↔ opcode i = 0x01 := by
  cases i <;> simp [opcode]

/-- Settles O22: each clause is the disjunct of `check_eq_some_iff` for its error, and the last is the case in which no
check fails. -/
theorem checksAreMadeInOrder : Obligations.ChecksAreMadeInOrder := by
  refine fun s hb => ⟨engineTurn_of_notInTable hb, fun i hd => ?_⟩
  have report (e : Err) (hc : check i s = some e) := engineTurn_of_check_some hb hd hc
  simp only [ne_eq, ← isDiagnostic_iff_opcode, ← eq_init_iff_opcode]
  refine ⟨fun h => report .diagDisabled ?_, fun hdiag => ⟨fun h => report .notInitialized ?_, fun hinit =>
    ⟨fun h => report .badOperand ?_, fun hop => ⟨fun h => report .invalidKeyLength ?_, fun hkey =>
      ⟨_, engineTurn_of_check_none hb hd ?_, succeed_errcode _⟩⟩⟩⟩⟩
  · exact (check_eq_some_iff ..).mpr (.inl ⟨rfl, h⟩)
  · exact (check_eq_some_iff ..).mpr (.inr (.inl ⟨rfl, hdiag, h⟩))
  · exact (check_eq_some_iff ..).mpr (.inr (.inr (.inl ⟨rfl, hdiag, hinit, h⟩)))
  · exact (check_eq_some_iff ..).mpr (.inr (.inr (.inr ⟨rfl, hdiag, hinit, hop, h⟩)))
  · simp only [not_and, Bool.not_eq_false, not_not] at hdiag hinit hkey
    exact (check_eq_none_iff i s).mpr ⟨hdiag, hinit, hop, hkey⟩

/-! ### What a completion writes (R309, R312, R313) -/

/-- All a completion can do: take an error, with the frame of R309, or have a command's effect and succeed. -/
theorem completion_cases {s t : State} (hb : s.busy = true) (h : engineTurn s = .next t) :
    (∃ e : Err, t = failedWith e.code s) ∨ ∃ i, t = succeed (effectOf i s) := by
  rcases engineTurn_cases h with ⟨hi, -⟩ | ⟨-, -, rfl⟩ | ⟨-, i, -, hx⟩
  · exact absurd (hb.symm.trans hi) (by decide)
  · exact .inl ⟨_, fail_eq_failedWith _ s⟩
  · rcases exec_cases hx with ⟨e, -, rfl⟩ | ⟨-, rfl⟩
    · exact .inl ⟨e, fail_eq_failedWith e s⟩
    · exact .inr ⟨i, rfl⟩

/-- The flags no command's effect writes: `ERR` and `OVR`, and the interrupt enable (R24, R29, R30). -/
def stickyFlags (s : State) : Bool × Bool × Bool := (s.err, s.ovr, s.ie)

theorem effectOf_stickyFlags (i : Instr) (s : State) : stickyFlags (effectOf i s) = stickyFlags s := by
  cases i <;> rfl

theorem effectOf_err (i : Instr) (s : State) : (effectOf i s).err = s.err :=
  congrArg (·.1) (effectOf_stickyFlags i s)

theorem effectOf_ovr (i : Instr) (s : State) : (effectOf i s).ovr = s.ovr :=
  congrArg (·.2.1) (effectOf_stickyFlags i s)

theorem effectOf_ie (i : Instr) (s : State) : (effectOf i s).ie = s.ie :=
  congrArg (·.2.2) (effectOf_stickyFlags i s)

/-- Settles O24: a success writes code 0, so a nonzero code is that of an error taken. -/
theorem errorsArePrecise : Obligations.ErrorsArePrecise := by
  intro s t hb h hne
  rcases completion_cases hb h with ⟨e, rfl⟩ | ⟨i, rfl⟩
  · rfl
  · exact absurd (succeed_errcode _) hne

/-- Settles O25: an error sets `ERR` with its nonzero code, and a success leaves `ERR` and `OVR` as the command's effect
does. -/
theorem completionWritesTheStatus : Obligations.CompletionWritesTheStatus := by
  intro s t hb h
  rcases completion_cases hb h with ⟨e, rfl⟩ | ⟨i, rfl⟩
  · exact ⟨rfl, rfl, fun _ => rfl, fun h0 => absurd h0 (errCode_ne_zero e), rfl⟩
  · exact ⟨rfl, rfl, fun hne => absurd (succeed_errcode _) hne,
      fun _ => (succeed_err_eq _).trans (effectOf_err i s), effectOf_ovr i s⟩

/-! ### The interrupt (R320) -/

/-- A completion sets `DONE` and leaves `IE`. -/
theorem irq_of_completion {s t : State} (hb : s.busy = true) (h : engineTurn s = .next t) : irq t = s.ie := by
  rcases completion_cases hb h with ⟨e, rfl⟩ | ⟨i, rfl⟩
  · rfl
  · exact effectOf_ie i s

/-- The registers whose writes reach `DONE` or `IE`, by their word offsets (R62). -/
theorem windowReg_offsets (off : BitVec 8) :
    (windowReg off = .ctrl → off.toNat / 4 = 1) ∧ (windowReg off = .status → off.toNat / 4 = 2) ∧
      (windowReg off = .cmd → off.toNat / 4 = 4) := by
  unfold windowReg
  split <;> simp [*]

/-- An idle write turns the interrupt off by accepting a command, by clearing `DONE`, or by clearing `IE`; a write to any
other register leaves both flags. -/
theorem writeIdle_clears_irq {r : WindowReg} {v : Word} {s : State} (hs : irq s = true)
    (hw : irq (writeIdle r v s) = false) :
    r = .cmd ∨ (r = .status ∧ v.getLsbD 2 = true) ∨ (r = .ctrl ∧ v.getLsbD 1 = false) := by
  obtain ⟨hdone, hie⟩ : s.done = true ∧ s.ie = true := (Bool.and_eq_true _ _).mp hs
  cases r with
  | cmd => exact .inl rfl
  | status =>
    have hbit : v.getLsbD 2 = true := by simpa [irq, writeIdle, hdone, hie] using hw
    exact .inr (.inl ⟨rfl, hbit⟩)
  | ctrl =>
    have hbit : v.getLsbD 1 = false := by simpa [irq, writeIdle, hdone] using hw
    exact .inr (.inr ⟨rfl, hbit⟩)
  | id | errcode | din | dout | key | reserved => exact absurd (hs.symm.trans hw) (by decide)

/-- A write while busy leaves the interrupt as it is (R65). -/
theorem hostWrite_clears_irq {off : BitVec 8} {v : Word} {s : State} (hs : irq s = true)
    (hw : irq (hostWrite off v s) = false) :
    off.toNat / 4 = 4 ∨ (off.toNat / 4 = 2 ∧ v.getLsbD 2 = true) ∨ (off.toNat / 4 = 1 ∧ v.getLsbD 1 = false) := by
  obtain ⟨hctrl, hstatus, hcmd⟩ := windowReg_offsets off
  rcases hostWrite_cases off v s with ⟨-, he⟩ | ⟨-, he⟩
  · rw [he] at hw
    exact absurd (hs.symm.trans hw) (by decide)
  · rw [he] at hw
    exact (writeIdle_clears_irq hs hw).imp hcmd (.imp (.imp_left hstatus) (.imp_left hctrl))

/-- Settles O26: completions and host writes by the two flags `irq` is made of; a read writes neither. -/
theorem interruptFollowsDoneAndIe : Obligations.InterruptFollowsDoneAndIe := by
  refine ⟨fun _ _ => irq_of_completion, fun s off v hb hdone ho => ?_, fun _ _ _ => hostWrite_clears_irq, fun _ _ => rfl⟩
  have hr : windowReg off = .ctrl := windowReg_of_div ho
  rw [hostWrite_of_idle off v hb, hr]
  simp [irq, writeIdle, hdone]

end Sys2Proof.Proofs.Exceptions
end

section
/-! PROOFS. The bounded end of a command (70_reset_and_hazards R350): the engine's turn and a reset end it, and a host
access uses up one entry of the schedule. -/

namespace Sys2Proof.Proofs.Liveness

open Sys2Proof.Machine Sys2Proof.Safety Sys2Proof.Laws Sys2Proof.Proofs.Turn Sys2Proof.Proofs.Memory
  Sys2Proof.Proofs.Exceptions

/-- The engine's turn ends the command in progress, with success or with an error (R312). -/
theorem engineTurn_ends {s : State} (hb : s.busy = true) : ∃ t, engineTurn s = .next t ∧ t.busy = false := by
  obtain ⟨t, ht⟩ := engineTurn_proceeds s
  obtain ⟨-, hbusy, -⟩ := completionWritesTheStatus s t hb ht
  exact ⟨t, ht, hbusy⟩

/-- A step while busy either ends the command, as the engine's turn and a reset do, or is an access that leaves the engine
busy with the rest of the schedule (R65, R312, R342). -/
theorem step_busy_ends_or_pops {s : State} {x : Input} {rest : List Input} (hb : s.busy = true)
    (hi : s.inputs = x :: rest) : ∃ t, step s = .next t ∧ (t.busy = false ∨ t.busy = true ∧ t.inputs = rest) := by
  cases x with
  | write off v | read off =>
    obtain ⟨d, n, hstep⟩ := step_access_busy hb hi rfl
    exact ⟨_, hstep, .inr ⟨hb, rfl⟩⟩
  | engine =>
    obtain ⟨t, ht, hidle⟩ := engineTurn_ends (s := { s with inputs := rest }) hb
    exact ⟨t, (step_engine hi).trans ht, .inl hidle⟩
  | powerOnReset => exact ⟨_, step_reset hi, .inl rfl⟩

/-- Settles O9, by induction on the schedule: drained, the engine's turn ends the command; else its head does, or leaves
the engine busy with the rest. -/
theorem acceptedCommandAlwaysEnds : Obligations.AcceptedCommandAlwaysEnds := by
  intro s hb
  induction hi : s.inputs generalizing s with
  | nil =>
    obtain ⟨t, ht, hidle⟩ := engineTurn_ends hb
    exact ⟨1, t, le_rfl, runsTo_succ ((step_drained hi).trans ht) (runsTo_zero t), hidle⟩
  | cons x rest ih =>
    obtain ⟨u, hstep, hidle | ⟨hbusy, hrest⟩⟩ := step_busy_ends_or_pops hb hi
    · exact ⟨1, u, Nat.le_add_left .., runsTo_succ hstep (runsTo_zero u), hidle⟩
    · obtain ⟨k, t, hk, hrun, hidle⟩ := ih u hbusy hrest
      exact ⟨k + 1, t, Nat.succ_le_succ hk, runsTo_succ hstep hrun, hidle⟩

end Sys2Proof.Proofs.Liveness
end
